-- ==== Sys2Proof/Word.lean ====
section
/-! DEFINITION. The word types: a byte and a register file of eight bytes (10_state.md R20). -/

namespace Sys2Proof

/-- A byte is 8 bits (R9). -/
abbrev Byte := BitVec 8

/-- A register file of eight bytes, index 0 first on the bus (R20, R24). -/
abbrev Bytes8 := Vector Byte 8

/-- The eight indices 0..7, in the order bytes and bits move on the bus (R63, R64). -/
def indices : List (Fin 8) := [0, 1, 2, 3, 4, 5, 6, 7]

end Sys2Proof
end

