-- ==== Sys2Proof/Config.lean ====
section
/-! DEFINITION. The closed vocabularies of the block, the timing parameters an implementation fixes
(00_scope.md R11), and the free values: opaque constants of which nothing can be proved. -/

namespace Sys2Proof

/-- `OP`, 1 bit: 0 = READ, 1 = REWRITE (R31). -/
inductive Op where
  | read
  | rewrite
  deriving DecidableEq, Repr, Inhabited

/-- The codes of `STATUS.ERR` (R38, R270). -/
inductive ErrCode where
  | none
  | noDevicePresent
  | transportTimingFault
  | verificationMismatch
  deriving DecidableEq, Repr, Inhabited

/-- An error that aborts a command (R270). -/
abbrev ErrCode.Aborts (e : ErrCode) : Prop := e = .noDevicePresent ∨ e = .transportTimingFault

/-- The twelve values of `STEP` and `FSTEP`; 12..15 are never produced (R33, U5). -/
inductive StepCode where
  | idle
  | readOld
  | enterWriteMode
  | armWrite
  | resync
  | sendWriteCommand
  | transmitIdentifier
  | exitWriteSetup
  | disableWrite
  | disarmWrite
  | verifyNew
  | readRom
  deriving DecidableEq, Repr, Inhabited

/-- What `EnvReset()` answers (R16). -/
inductive ResetAnswer where
  | presence
  | noPresence
  | fault
  deriving DecidableEq, Repr, Inhabited

/-- What `EnvWriteBit(b)` answers (R16). -/
inductive WriteAnswer where
  | ok
  | fault
  deriving DecidableEq, Repr, Inhabited

/-- What `EnvReadBit()` answers (R16). -/
inductive ReadAnswer where
  | bit (b : Bool)
  | fault
  deriving DecidableEq, Repr, Inhabited

/-- The parameters of level L (R11), each a number of ticks but for `tTick`, the length of one tick,
which this model counts in nanoseconds (DESIGN CHOICE, log 14). -/
structure Timing where
  tTick : Nat
  tA : Nat
  tB : Nat
  tC : Nat
  tD : Nat
  tE : Nat
  tF : Nat
  tH : Nat
  tI : Nat
  tJ : Nat
  tSettle : Nat
  deriving DecidableEq, Repr, Inhabited

/-- The constraints of R11, `T_SETTLE` = 10 ms / `T_TICK` (R10), and that every line operation fits the
14 bits of `TCNT` (R50, R137e). -/
abbrev Timing.Wf (T : Timing) : Prop :=
  (0 < T.tTick ∧ T.tSettle * T.tTick = 10000000) ∧
  (1 ≤ T.tA ∧ 1 ≤ T.tB ∧ T.tA < T.tC ∧ 1 ≤ T.tD ∧ 1 ≤ T.tE ∧ 1 ≤ T.tF ∧ 1 ≤ T.tH ∧ 1 ≤ T.tI ∧ 1 ≤ T.tJ) ∧
  (T.tA + T.tB ≤ 2 ^ 14 ∧ T.tC + T.tD ≤ 2 ^ 14 ∧ T.tA + T.tE + T.tF ≤ 2 ^ 14 ∧
    T.tH + T.tI + T.tJ ≤ 2 ^ 14 ∧ T.tSettle ≤ 2 ^ 14)

/-- The defaults of R11 (PRESUMED by the spec, G1, log 14); no meaning of the model uses them. -/
def Timing.defaults : Timing where
  tTick := 1000
  tA := 6
  tB := 64
  tC := 60
  tD := 10
  tE := 9
  tF := 55
  tH := 480
  tI := 70
  tJ := 410
  tSettle := 10000

/-- Free value (log 2): the `n`-th answer of `EnvReset` once the listed answers have run out (R16). -/
opaque Config.freeReset : Nat → ResetAnswer

/-- Free value (log 2): the `n`-th answer of `EnvWriteBit b` once the listed answers have run out (R16). -/
opaque Config.freeWrite : Nat → Bool → WriteAnswer

/-- Free value (log 2): the `n`-th answer of `EnvReadBit` once the listed answers have run out (R16). -/
opaque Config.freeRead : Nat → ReadAnswer

/-- Free value (log 11): `STEP` while `BUSY = 1` and `UPC` lies outside the program, which R33 does not list. -/
opaque Config.strayStep : Op → BitVec 8 → StepCode

end Sys2Proof
end

