-- ==== Sys2Proof/Syntax.lean ====
section
/-! DEFINITION. The instructions: one constructor per row of spec/opcode_table.json. -/

namespace Sys2Proof

/-- The `d` field of RBYTE: 0 = ROMCODE, 1 = OLDCODE (R96). -/
inductive Dest where
  | romcode
  | oldcode
  deriving DecidableEq, Repr

/-- Layer H (host commands), layer U (micro-operations), layer W (bus command frames) and the two
pseudo-instructions (R90, R112). -/
inductive Instr where
  /-- `cmd = 00` (R253). -/
  | nop
  /-- `cmd = 01` (R255). -/
  | read
  /-- `cmd = 10` with `pat_in[63:0]` (R256). -/
  | rewrite (patIn : BitVec 64)
  /-- `cmd = 11` (R257). -/
  | reservedCmd
  /-- RESET (R121). -/
  | reset
  /-- WBYTE v (R125). -/
  | wbyte (v : Byte)
  /-- WBIT b (R123). -/
  | wbit (b : Bool)
  /-- WBITP k,i (R129). -/
  | wbitp (k i : Fin 8)
  /-- RBYTE d,k (R127). -/
  | rbyte (d : Dest) (k : Fin 8)
  /-- WAIT10 (R131). -/
  | wait10
  /-- 0x33, then 64 read slots (R101). -/
  | owReadRom
  /-- 0xD1, then one write slot of bit 0, then a wait (R102). -/
  | owWriteEnable
  /-- 0xD1, then one write slot of bit 1, then a wait (R102). -/
  | owWriteDisable
  /-- 0xD5, then 64 write slots, a wait after each (R103). -/
  | owWriteData
  /-- RESET; WBYTE 0x33; RBYTE d,0; ...; RBYTE d,7 (R200). -/
  | romread (d : Dest)
  /-- WBITP k,0; WAIT10; ...; WBITP k,7; WAIT10 (R191). -/
  | codec (k : Fin 8)
  deriving DecidableEq, Repr

end Sys2Proof
end

