-- ==== Sys2Proof/WellFormed.lean ====
section
/-! DEFINITION. Which instructions the block itself ever holds. The field types already bound every index;
one check is left, the byte of a WBYTE. -/

namespace Sys2Proof

/-- The three command bytes (R9, R100). -/
def commandBytes : List Byte := [0x33, 0xD1, 0xD5]

/-- "The only immediates that occur are `v` in {0x33, 0xD1, 0xD5} and `b` in {0, 1}" (R106, R109). The
meanings do not ask for it: WBYTE is defined for every byte (R125). -/
def Instr.wellFormed (i : Instr) : Bool :=
  match i with
  | .wbyte v => commandBytes.contains v
  | .nop => true
  | .read => true
  | .rewrite _ => true
  | .reservedCmd => true
  | .reset => true
  | .wbit _ => true
  | .wbitp _ _ => true
  | .rbyte _ _ => true
  | .wait10 => true
  | .owReadRom => true
  | .owWriteEnable => true
  | .owWriteDisable => true
  | .owWriteData => true
  | .romread _ => true
  | .codec _ => true

end Sys2Proof
end

