-- ==== Sys2Proof/Decode.lean ====
section
/-! DEFINITION. Code words of every format of spec/opcode_table.json, their decoder (total, rejecting by
name) and the encoder, both written from the tables of 30_encoding.md. -/

namespace Sys2Proof

/-- A word of one of the formats (R91, R93, R101, R102); a decoder is told the format, since the layers are
separate (R90). The two pseudo-instructions have no word in the hardware; theirs is the table's `d` and `kkk`. -/
inductive CodeWord where
  | host (w : BitVec 66)
  | uop (w : BitVec 11)
  | bus8 (w : BitVec 8)
  | bus9 (w : BitVec 9)
  | romread (w : BitVec 1)
  | codec (w : BitVec 3)
  deriving DecidableEq, Repr

/-- Why a word is no instruction. -/
inductive DecodeReject where
  /-- Kinds 110 and 111 (R97). -/
  | reservedKind
  /-- A bit of `arg` that R96 shows as 0 is 1 (R97). -/
  | mustBeZero
  /-- A byte that is no BUSCMD8 row, or nine bits that are no BUSCMD9 row (R100, R109). -/
  | unknownBusCommand
  deriving DecidableEq, Repr

/-- What the decoder answers. -/
inductive Decoded where
  | ok (i : Instr)
  | rejected (r : DecodeReject)
  deriving DecidableEq, Repr

/-- The instruction read, if any. -/
def Decoded.toOption (d : Decoded) : Option Instr :=
  match d with
  | .ok i => some i
  | .rejected _ => none

/-- A 3-bit field as an index 0..7. -/
def toIndex (w : BitVec 3) : Fin 8 := w.toFin

/-- An index 0..7 as a 3-bit field. -/
def ofIndex (k : Fin 8) : BitVec 3 := BitVec.ofFin k

/-- The `d` bit (R96). -/
def destOfBit (b : Bool) : Dest := if b then .oldcode else .romcode

/-- The `d` bit (R96). -/
def Dest.bit (d : Dest) : Bool :=
  match d with
  | .romcode => false
  | .oldcode => true

/-- Layer H: `cmd[1:0]` in bits 65:64, `pat_in` in 63:0; no encoding is refused (R91, R108). -/
def decodeHost (w : BitVec 66) : Instr :=
  let cmd := w.extractLsb' 64 2
  if cmd = 0b00#2 then .nop
  else if cmd = 0b01#2 then .read
  else if cmd = 0b10#2 then .rewrite (w.extractLsb' 0 64)
  else .reservedCmd

/-- Layer U: `kind` in bits 10:8, `arg` in 7:0 (R93, R96); reserved words are refused (R97, U6). -/
def decodeUop (w : BitVec 11) : Decoded :=
  let kind := w.extractLsb' 8 3
  let arg := w.extractLsb' 0 8
  if kind = 0b000#3 then
    if arg = 0#8 then .ok .reset else .rejected .mustBeZero
  else if kind = 0b001#3 then .ok (.wbyte arg)
  else if kind = 0b010#3 then
    if arg.extractLsb' 1 7 = 0#7 then .ok (.wbit (arg.getLsbD 0)) else .rejected .mustBeZero
  else if kind = 0b011#3 then
    if arg.extractLsb' 6 2 = 0#2 then
      .ok (.wbitp (toIndex (arg.extractLsb' 3 3)) (toIndex (arg.extractLsb' 0 3)))
    else .rejected .mustBeZero
  else if kind = 0b100#3 then
    if arg.extractLsb' 4 4 = 0#4 then
      .ok (.rbyte (destOfBit (arg.getLsbD 3)) (toIndex (arg.extractLsb' 0 3)))
    else .rejected .mustBeZero
  else if kind = 0b101#3 then
    if arg = 0#8 then .ok .wait10 else .rejected .mustBeZero
  else .rejected .reservedKind

/-- Format BUSCMD8 (R101, R103). -/
def decodeBus8 (w : BitVec 8) : Decoded :=
  if w = 0x33#8 then .ok .owReadRom
  else if w = 0xD5#8 then .ok .owWriteData
  else .rejected .unknownBusCommand

/-- Format BUSCMD9: bits 7:0 = 0xD1, bit 8 = `arm` (R102). -/
def decodeBus9 (w : BitVec 9) : Decoded :=
  if w = 0x0D1#9 then .ok .owWriteEnable
  else if w = 0x1D1#9 then .ok .owWriteDisable
  else .rejected .unknownBusCommand

/-- The decoder, total on every word of every format. -/
def decode (w : CodeWord) : Decoded :=
  match w with
  | .host x => .ok (decodeHost x)
  | .uop x => decodeUop x
  | .bus8 x => decodeBus8 x
  | .bus9 x => decodeBus9 x
  | .romread x => .ok (.romread (destOfBit (x.getLsbD 0)))
  | .codec x => .ok (.codec (toIndex x))

/-- A HOSTCMD word (R91). -/
def hostWord (cmd : BitVec 2) (patIn : BitVec 64) : BitVec 66 := cmd ++ patIn

/-- A UOP word (R93). -/
def uopWord (kind : BitVec 3) (arg : BitVec 8) : BitVec 11 := kind ++ arg

/-- The encoder. The ignored bits of a HOSTCMD word are written as 0 (DESIGN CHOICE, log 7). -/
def encode (i : Instr) : CodeWord :=
  match i with
  | .nop => .host (hostWord 0b00 0)
  | .read => .host (hostWord 0b01 0)
  | .rewrite p => .host (hostWord 0b10 p)
  | .reservedCmd => .host (hostWord 0b11 0)
  | .reset => .uop (uopWord 0b000 0)
  | .wbyte v => .uop (uopWord 0b001 v)
  | .wbit b => .uop (uopWord 0b010 (0#7 ++ BitVec.ofBool b))
  | .wbitp k i => .uop (uopWord 0b011 (0#2 ++ (ofIndex k ++ ofIndex i)))
  | .rbyte d k => .uop (uopWord 0b100 (0#4 ++ (BitVec.ofBool d.bit ++ ofIndex k)))
  | .wait10 => .uop (uopWord 0b101 0)
  | .owReadRom => .bus8 0x33
  | .owWriteEnable => .bus9 0x0D1
  | .owWriteDisable => .bus9 0x1D1
  | .owWriteData => .bus8 0xD5
  | .romread d => .romread (BitVec.ofBool d.bit)
  | .codec k => .codec (ofIndex k)

/-- Which format a bare table word of `nbits` bits is read in (log 6, DESIGN CHOICE): the table's widths are
66, 11, 9, 8, 3 and 1 bits; in whole bytes 66 becomes 72, 11 and 9 both become 16, and 8, 3 and 1 all become 8.
Where two rows share a word, the row whose every bit is fixed wins, since the other row has words of its own. -/
def tableWord (nbits w : Nat) : Option CodeWord :=
  if nbits = 72 ∨ nbits = 66 then
    if w < 2 ^ 66 then some (.host (BitVec.ofNat 66 w)) else none
  else if nbits = 16 then
    if w = 0x0D1 ∨ w = 0x1D1 then some (.bus9 (BitVec.ofNat 9 w))
    else if w < 2 ^ 11 then some (.uop (BitVec.ofNat 11 w)) else none
  else if nbits = 11 then
    if w < 2 ^ 11 then some (.uop (BitVec.ofNat 11 w)) else none
  else if nbits = 9 then
    if w < 2 ^ 9 then some (.bus9 (BitVec.ofNat 9 w)) else none
  else if nbits = 8 then
    if w < 2 then some (.romread (BitVec.ofNat 1 w))
    else if w < 8 then some (.codec (BitVec.ofNat 3 w))
    else if w < 2 ^ 8 then some (.bus8 (BitVec.ofNat 8 w)) else none
  else if nbits = 3 then
    if w < 8 then some (.codec (BitVec.ofNat 3 w)) else none
  else if nbits = 1 then
    if w < 2 then some (.romread (BitVec.ofNat 1 w)) else none
  else none

/-- The instruction the decoder reads from a table word. -/
def decodeTableWord (nbits w : Nat) : Option Instr :=
  (tableWord nbits w).bind fun c => (decode c).toOption

end Sys2Proof
end

