-- ==== Sys2Proof/Machine/State.lean ====
section
/-! DEFINITION. The state: every register of 10_state.md, then the model's own fields (the host's and the
environment's coming inputs, the placed word, the two histories). Plain data. -/

namespace Sys2Proof.Machine

/-- The input pins of one tick but `ow_in` (R45). -/
structure Pins where
  rst : Bool
  cmdWrite : Bool
  cmdRead : Bool
  patIn : BitVec 64
  deriving DecidableEq, Repr

/-- A level T trace event (R17), one per micro-operation started; `faultSlot` is the slot that faulted, if one did
(a single-bit write has slot 0 only). -/
inductive Event where
  | reset (a : ResetAnswer)
  | wbyte (v : Byte) (faultSlot : Option (BitVec 3))
  | wbit (b : Bool) (faultSlot : Option (BitVec 3))
  | rbyte (v : Byte)
  | rbyteFault (slot : BitVec 3)
  | wait10
  deriving DecidableEq, Repr

/-- What a slave sees (layer W, R90; the slot events of R17): completed bus resets and completed slots. -/
inductive WireEvent where
  | reset
  | w (b : Bool)
  | r (b : Bool)
  deriving DecidableEq, Repr

/-- The machine. The comment of a register names its rule; all reset to 0 (R55). -/
structure State where
  /-- `PAT[0..7]` (R21). -/
  pat : Bytes8
  /-- `ROMCODE[0..7]` (R22). -/
  romcode : Bytes8
  /-- `OLDCODE[0..7]` (R23). -/
  oldcode : Bytes8
  /-- `UPC` (R30). -/
  upc : BitVec 8
  /-- `OP` (R31). -/
  op : Op
  /-- `BUSY` (R36). -/
  busy : Bool
  /-- `DONE` (R37). -/
  done : Bool
  /-- `VALID` (R37). -/
  valid : Bool
  /-- `OLDVALID` (R37). -/
  oldvalid : Bool
  /-- `MATCH` (R37). -/
  matched : Bool
  /-- `ERR` (R38). -/
  err : ErrCode
  /-- `FSTEP` (R39). -/
  fstep : StepCode
  /-- `TCNT` (R50). -/
  tcnt : BitVec 14
  /-- `BITI` (R50). -/
  biti : BitVec 3
  /-- `SR` (R50). -/
  sr : Byte
  /-- `PRES` (R50). -/
  pres : Bool
  /-- `OE`: the level of `ow_oe` in the tick just performed (R50, R154); 0 after a `rst` tick (R310, log 29). -/
  oe : Bool
  /-- Model's own (log 3): the host's coming pin values, one entry a level T step. -/
  pins : List Pins
  /-- Model's own (log 2): the coming answers of `EnvReset`. -/
  ansReset : List ResetAnswer
  /-- Model's own (log 2): the coming answers of `EnvWriteBit`. -/
  ansWrite : List WriteAnswer
  /-- Model's own (log 2): the coming answers of `EnvReadBit`. -/
  ansRead : List ReadAnswer
  /-- Model's own (log 2): how many free answers were drawn. -/
  asks : Nat
  /-- Model's own (log 5): a code word placed from outside, run by the next step. -/
  slot : Option CodeWord
  /-- Model's own (log 16): the level T trace so far, oldest first. -/
  trace : List Event
  /-- Model's own (log 16): the layer W bits so far, oldest first. -/
  wire : List WireEvent
  deriving DecidableEq, Repr

/-- How the machine can stop. -/
inductive Fault where
  /-- Raised by `step` and `tick` when `BUSY = 1` and `UPC` lies outside the selected program: R30 gives that value no
  meaning and no rule produces it (log 12). Safe. -/
  | noMicroOperation
  deriving DecidableEq, Repr

/-- Why a step has no meaning. -/
inductive Refusal where
  /-- An instruction without a meaning; no arm of `exec` answers it. Safe. -/
  | notModelled (mnemonic : String)
  /-- Raised by `step` for a word placed from outside that the decoder rejects (U6: "refuse if a model ever decodes
  words"). Safe. -/
  | undecodable (r : DecodeReject)
  deriving DecidableEq, Repr

/-- The state after reset: every register 0 (R55, R310); the model's own fields empty (logs 2, 3, 5, 16). -/
def State.reset : State where
  pat := Vector.replicate 8 0
  romcode := Vector.replicate 8 0
  oldcode := Vector.replicate 8 0
  upc := 0
  op := .read
  busy := false
  done := false
  valid := false
  oldvalid := false
  matched := false
  err := .none
  fstep := .idle
  tcnt := 0
  biti := 0
  sr := 0
  pres := false
  oe := false
  pins := []
  ansReset := []
  ansWrite := []
  ansRead := []
  asks := 0
  slot := none
  trace := []
  wire := []

end Sys2Proof.Machine
end

