-- ==== Sys2Proof/Machine/Operands.lean ====
section
/-! DEFINITION. Operand forms and the arithmetic of the block (R137): bit selection, byte assembly, the pattern
transform, the packing of the 64-bit ports, the string convention and the register numbers. -/

namespace Sys2Proof.Machine

/-- The bits of a byte in wire order, bit 0 first (R63). -/
def byteBits (v : Byte) : List Bool := indices.map fun i => v.getLsbD i

/-- Byte assembly, the sum of `b_i * 2^i` (R137b): the first bit becomes bit 0 (R63). -/
def assemble (bits : List Bool) : Byte := BitVec.ofNat 8 (bits.foldr (fun b n => b.toNat + 2 * n) 0)

/-- `x[i] <- b` (R127). -/
def setBit (x : Byte) (i : BitVec 3) (b : Bool) : Byte :=
  if b then x ||| (1#8 <<< i) else x &&& ~~~(1#8 <<< i)

/-- `PAT[k][i]` (R129). -/
def patBit (pat : Bytes8) (k i : Fin 8) : Bool := (pat[k]).getLsbD i

/-- `PatternOf(id) = ~id` (R104). -/
def patternOf (id : Byte) : Byte := ~~~id

/-- `IdOf(pat) = ~pat` (R104). -/
def idOf (pat : Byte) : Byte := ~~~pat

/-- `pat_in[8k+7:8k]` for every `k` (R45, R256). -/
def unpackPort (p : BitVec 64) : Bytes8 :=
  #v[p.extractLsb' 0 8, p.extractLsb' 8 8, p.extractLsb' 16 8, p.extractLsb' 24 8,
     p.extractLsb' 32 8, p.extractLsb' 40 8, p.extractLsb' 48 8, p.extractLsb' 56 8]

/-- The wiring of `rom_out` and `old_out`: register `k` in bits `8k+7:8k` (R24, R45). -/
def packPort (r : Bytes8) : BitVec 64 :=
  r[7] ++ (r[6] ++ (r[5] ++ (r[4] ++ (r[3] ++ (r[2] ++ (r[1] ++ r[0]))))))

/-- The port `rom_out` (R22). -/
def State.romOut (s : State) : BitVec 64 := packPort s.romcode

/-- The port `old_out` (R23). -/
def State.oldOut (s : State) : BitVec 64 := packPort s.oldcode

/-- `val(s)`: an 8-character string, leftmost character most significant (R14); `true` is the character '1'. -/
def strVal (s : Vector Bool 8) : Byte := BitVec.ofNat 8 (s.toList.foldl (fun n b => 2 * n + b.toNat) 0)

/-- `str(v)`, the inverse of `val` (R14). -/
def strOf (v : Byte) : Vector Bool 8 :=
  #v[v.getLsbD 7, v.getLsbD 6, v.getLsbD 5, v.getLsbD 4, v.getLsbD 3, v.getLsbD 2, v.getLsbD 1, v.getLsbD 0]

/-- The host's pins when nothing is presented: `rst = 0`, `cmd = 00`. -/
def Pins.quiet : Pins := { rst := false, cmdWrite := false, cmdRead := false, patIn := 0 }

/-- The HOSTCMD word at the pins: `cmd[1] = cmd_write`, `cmd[0] = cmd_read` (R91). -/
def Pins.word (p : Pins) : BitVec 66 := hostWord (BitVec.ofBool p.cmdWrite ++ BitVec.ofBool p.cmdRead) p.patIn

/-- The pins that present a HOSTCMD word. -/
def Pins.ofWord (w : BitVec 66) : Pins where
  rst := false
  cmdWrite := w.getLsbD 65
  cmdRead := w.getLsbD 64
  patIn := w.extractLsb' 0 64

end Sys2Proof.Machine
end

