-- ==== Sys2Proof/Machine/Microprogram.lean ====
section
/-! DEFINITION. The two hardwired micro-programs as words, copied from the listings of 43_rom_reader.md (R203) and
44_rewrite_sequencer.md (R217), and the fetch of the word `UPC` points at (R30, R120). -/

namespace Sys2Proof.Machine

/-- The length of the selected micro-program (R30). -/
def progLen (o : Op) : Nat :=
  match o with
  | .read => 10
  | .rewrite => 158

/-- The READ micro-program (R203). -/
def readWords : List (BitVec 11) :=
  [0b00000000000, 0b00100110011,
   0b10000000000, 0b10000000001, 0b10000000010, 0b10000000011,
   0b10000000100, 0b10000000101, 0b10000000110, 0b10000000111]

/-- REWRITE, `UPC` 0..15: states 1 to 5 (R217). -/
def rewriteOpening : List (BitVec 11) :=
  [0b00000000000, 0b00100110011,
   0b10000001000, 0b10000001001, 0b10000001010, 0b10000001011,
   0b10000001100, 0b10000001101, 0b10000001110, 0b10000001111,
   0b00000000000, 0b00111010001, 0b01000000000, 0b10100000000,
   0b00000000000, 0b00111010101]

/-- REWRITE, `UPC` 16+16k+2i and 17+16k+2i: state 6, for one `k` (R217, R191). -/
def codecWords (k : Fin 8) : List (BitVec 11) :=
  indices.flatMap fun i => [0b01100#5 ++ (ofIndex k ++ ofIndex i), 0b10100000000]

/-- REWRITE, `UPC` 144..157: states 7 to 10 (R217). -/
def rewriteClosing : List (BitVec 11) :=
  [0b00000000000, 0b00111010001, 0b01000000001, 0b10100000000,
   0b00000000000, 0b00100110011,
   0b10000000000, 0b10000000001, 0b10000000010, 0b10000000011,
   0b10000000100, 0b10000000101, 0b10000000110, 0b10000000111]

/-- The REWRITE micro-program (R217). -/
def rewriteWords : List (BitVec 11) := rewriteOpening ++ indices.flatMap codecWords ++ rewriteClosing

/-- `prog(OP)` (R120). -/
def progWords (o : Op) : List (BitVec 11) :=
  match o with
  | .read => readWords
  | .rewrite => rewriteWords

/-- The word of `prog(OP)[UPC]`, if there is one. -/
def State.programWord (s : State) : Option (BitVec 11) := (progWords s.op)[s.upc.toNat]?

/-- `prog(OP)[UPC]` as an instruction (R120). -/
def State.programInstr (s : State) : Option Instr :=
  s.programWord.bind fun w => (decodeUop w).toOption

end Sys2Proof.Machine
end

