-- ==== Sys2Proof/Machine/Flags.lean ====
section
/-! DEFINITION. Every flag computation: STEP (R33), MATCH (R232), the codes of STATUS (R38, R40, R114), and what
completion and acceptance write into the flags. -/

namespace Sys2Proof.Machine

/-- The 4-bit code of a step (R33). -/
def stepBits (c : StepCode) : BitVec 4 :=
  match c with
  | .idle => 0
  | .readOld => 1
  | .enterWriteMode => 2
  | .armWrite => 3
  | .resync => 4
  | .sendWriteCommand => 5
  | .transmitIdentifier => 6
  | .exitWriteSetup => 7
  | .disableWrite => 8
  | .disarmWrite => 9
  | .verifyNew => 10
  | .readRom => 11

/-- The 2-bit code of an error (R38). -/
def errBits (e : ErrCode) : BitVec 2 :=
  match e with
  | .none => 0
  | .noDevicePresent => 1
  | .transportTimingFault => 2
  | .verificationMismatch => 3

/-- The `OP` bit (R31). -/
def opBit (o : Op) : BitVec 1 :=
  match o with
  | .read => 0
  | .rewrite => 1

/-- The step of a running command (R33); outside the program a free value (log 11). -/
def runningStep (o : Op) (upc : BitVec 8) : StepCode :=
  match o with
  | .read => if upc ≤ 9 then .readRom else Config.strayStep .read upc
  | .rewrite =>
    if upc ≤ 9 then .readOld
    else if upc ≤ 11 then .enterWriteMode
    else if upc ≤ 13 then .armWrite
    else if upc = 14 then .resync
    else if upc = 15 then .sendWriteCommand
    else if upc ≤ 143 then .transmitIdentifier
    else if upc = 144 then .exitWriteSetup
    else if upc = 145 then .disableWrite
    else if upc ≤ 147 then .disarmWrite
    else if upc ≤ 157 then .verifyNew
    else Config.strayStep .rewrite upc

/-- `STEP` (R33). -/
def State.stepCode (s : State) : StepCode := if s.busy then runningStep s.op s.upc else .idle

/-- `STATUS` (R40): FSTEP, STEP, OP, ERR, MATCH, OLDVALID, VALID, DONE, BUSY, from bit 15 down. -/
def State.status (s : State) : BitVec 16 :=
  stepBits s.fstep ++ (stepBits s.stepCode ++ (opBit s.op ++ (errBits s.err ++ (BitVec.ofBool s.matched ++
    (BitVec.ofBool s.oldvalid ++ (BitVec.ofBool s.valid ++ (BitVec.ofBool s.done ++ BitVec.ofBool s.busy)))))))

/-- The MATCH computation: `ROMCODE[k] = IdOf(PAT[k])` for every `k` (R232). -/
def State.matches (s : State) : Bool := indices.all fun k => s.romcode[k] == idOf s.pat[k]

/-- `MATCH` after completion: computed for REWRITE, untouched for READ (R258). -/
def State.endMatched (s : State) : Bool :=
  match s.op with
  | .read => s.matched
  | .rewrite => s.matches

/-- `ERR` after completion: 3 for a REWRITE that does not match, else untouched (R233, R258, R274). -/
def State.endErr (s : State) : ErrCode :=
  match s.op with
  | .read => s.err
  | .rewrite => if s.matches then s.err else .verificationMismatch

/-- All flags cleared, as every acceptance does (R37, R38, R39, R255, R256). -/
def State.clearFlags (s : State) : State :=
  { s with done := false, valid := false, oldvalid := false, matched := false, err := .none, fstep := .idle }

/-- What a read of a register number gives (R41). -/
inductive RegView where
  | status (w : BitVec 16)
  | byte (v : Byte)
  | notReadable
  | noSuchRegister
  deriving DecidableEq, Repr

/-- The registers by number: 0 STATUS, 1..8 ROMCODE, 9..16 OLDCODE, 17..24 PAT (not readable), no others (R41).
A read changes nothing (R71), so it is a function of the state. -/
def State.regView (s : State) (n : Nat) : RegView :=
  if n = 0 then .status s.status
  else if h : 1 ≤ n ∧ n ≤ 8 then .byte (s.romcode[n - 1]'(by omega))
  else if h : 9 ≤ n ∧ n ≤ 16 then .byte (s.oldcode[n - 9]'(by omega))
  else if n ≤ 24 then .notReadable
  else .noSuchRegister

end Sys2Proof.Machine
end

