-- ==== Sys2Proof/Machine/Ops.lean ====
section
/-! DEFINITION. The shared operations: the environment's answers, the write slot and the read slot, bytes as eight
slots, advancement and completion, the abort (what takes an exception here), acceptance (the way back from one), `rst`. -/

namespace Sys2Proof.Machine

/-- How a transport operation ends: completed, or raised an error (R120). -/
inductive Flow where
  | ok (s : State)
  | raised (e : ErrCode) (s : State)
  deriving DecidableEq, Repr

/-- How a read slot ends (R124). -/
inductive BitFlow where
  | ok (b : Bool) (s : State)
  | raised (e : ErrCode) (s : State)
  deriving DecidableEq, Repr

/-- A trace event added (R17). -/
def State.logCall (s : State) (e : Event) : State := { s with trace := s.trace ++ [e] }

/-- A wire event added (R90). -/
def State.logWire (s : State) (e : WireEvent) : State := { s with wire := s.wire ++ [e] }

/-! ### The environment (R16, log 2) -/

/-- The next answer of `EnvReset()`: the first one listed, else a free value. -/
def State.resetAnswer (s : State) : ResetAnswer :=
  match s.ansReset with
  | a :: _ => a
  | [] => Config.freeReset s.asks

/-- The next answer of `EnvWriteBit(b)`: the first one listed, else a free value. -/
def State.writeAnswer (s : State) (b : Bool) : WriteAnswer :=
  match s.ansWrite with
  | a :: _ => a
  | [] => Config.freeWrite s.asks b

/-- The next answer of `EnvReadBit()`: the first one listed, else a free value. -/
def State.readAnswer (s : State) : ReadAnswer :=
  match s.ansRead with
  | a :: _ => a
  | [] => Config.freeRead s.asks

/-- `EnvReset()` has answered. -/
def State.dropReset (s : State) : State :=
  { s with ansReset := s.ansReset.tail, asks := if s.ansReset.isEmpty then s.asks + 1 else s.asks }

/-- `EnvWriteBit(b)` has answered. -/
def State.dropWrite (s : State) : State :=
  { s with ansWrite := s.ansWrite.tail, asks := if s.ansWrite.isEmpty then s.asks + 1 else s.asks }

/-- `EnvReadBit()` has answered. -/
def State.dropRead (s : State) : State :=
  { s with ansRead := s.ansRead.tail, asks := if s.ansRead.isEmpty then s.asks + 1 else s.asks }

/-! ### Slots and bytes -/

/-- `WSlot(b)` (R122). -/
def wslot (b : Bool) (s : State) : Flow :=
  match s.writeAnswer b with
  | .ok => .ok (s.dropWrite.logWire (.w b))
  | .fault => .raised .transportTimingFault s.dropWrite

/-- `RSlot()` (R124). -/
def rslot (s : State) : BitFlow :=
  match s.readAnswer with
  | .bit b => .ok b (s.dropRead.logWire (.r b))
  | .fault => .raised .transportTimingFault s.dropRead

/-- `BITI` counts a slot of a byte; it returns to 0 after the eighth (R50, R137e). -/
def State.nextBit (s : State) : State := { s with biti := s.biti + 1 }

/-- `SR[BITI] <- b` (R170). -/
def State.shiftIn (s : State) (b : Bool) : State := { s with sr := setBit s.sr s.biti b }

/-- Write slots back to back, stopping at the first that raises (R125, R126). -/
def wslots (bits : List Bool) (s : State) : Flow :=
  match bits with
  | [] => .ok s
  | b :: rest =>
    match wslot b s with
    | .ok t => wslots rest t.nextBit
    | .raised e t => .raised e t

/-- `n` read slots back to back into `SR`, stopping at the first that raises (R127, R170). -/
def rslots (n : Nat) (s : State) : Flow :=
  match n with
  | 0 => .ok s
  | m + 1 =>
    match rslot s with
    | .ok b t => rslots m (t.shiftIn b).nextBit
    | .raised e t => .raised e t

/-- `MemWrite(BUS, 8, v)`: eight write slots, bit 0 first (R125). -/
def writeByte (v : Byte) (s : State) : Flow := wslots (byteBits v) { s with biti := 0 }

/-- `MemRead(BUS, 8)` into `SR`: `SR <- 0`, then eight read slots (R127, R170). -/
def readByte (s : State) : Flow := rslots 8 { s with biti := 0, sr := 0 }

/-- The destination register of an RBYTE takes the assembled byte (R22, R23); the last byte of OLDCODE also sets
OLDVALID (R218, R37; log 23). -/
def State.storeByte (s : State) (d : Dest) (k : Fin 8) (v : Byte) : State :=
  match d with
  | .romcode => { s with romcode := s.romcode.set k v }
  | .oldcode => { s with oldcode := s.oldcode.set k v, oldvalid := s.oldvalid || k == 7 }

/-! ### How a micro-operation ends -/

/-- Does the micro-operation at `UPC` end the program (R258)? -/
def State.atEnd (s : State) : Bool := s.upc.toNat + 1 == progLen s.op

/-- Completion, in the tick the last micro-operation completes (R258, R232, R233). -/
def State.complete (s : State) : State :=
  { s with valid := true, matched := s.endMatched, err := s.endErr, done := true, busy := false, upc := 0 }

/-- `UPC <- UPC + 1`, and completion when that reaches the program's length (R32, R258). -/
def State.advance (s : State) : State :=
  if s.atEnd then s.complete else { s with upc := s.upc + 1 }

/-- THE ABORT, the one way an error is taken (R280): FSTEP and ERR record it, the core goes to IDLE, the line is
released. `TCNT` and `BITI` return to 0 as well (DESIGN CHOICE, log 9). -/
def State.abort (s : State) (e : ErrCode) : State :=
  { s with fstep := s.stepCode, err := e, done := true, busy := false, upc := 0, oe := false, tcnt := 0, biti := 0 }

/-- A micro-operation ends: it advances or aborts (R120). -/
def Flow.finish (f : Flow) : State :=
  match f with
  | .ok s => s.advance
  | .raised e s => s.abort e

/-- A run of micro-operations, ended by the first that raises and by the completion of the command (R120, R258). -/
def runSeq (ops : List (State → Flow)) (s : State) : State :=
  match ops with
  | [] => s
  | f :: rest =>
    match f s with
    | .ok t => if t.atEnd then t.advance else runSeq rest t.advance
    | .raised e t => t.abort e

/-! ### Commands and reset -/

/-- ACCEPTANCE of a command (R255, R256), which is also the way back from an error (R285). -/
def State.accept (s : State) (o : Op) : State :=
  { s.clearFlags with op := o, upc := 0, busy := true }

/-- `PAT[k] <- pat_in[8k+7:8k]` (R256). -/
def State.latchPat (s : State) (p : BitVec 64) : State := { s with pat := unpackPort p }

/-- `rst = 1`: every register takes its reset value, `OE` too, by R310; R154 alone would leave in `OE` the level of the
`rst` tick itself (DESIGN CHOICE, log 29; that level is `State.owOe`). The model's own fields are no registers (log 18),
and a call cut by the `rst` leaves no trace event (log 30). -/
def State.applyReset (s : State) : State :=
  { State.reset with
    pins := s.pins, ansReset := s.ansReset, ansWrite := s.ansWrite, ansRead := s.ansRead, asks := s.asks,
    slot := s.slot, trace := s.trace, wire := s.wire }

/-! ### The host's pins (log 3) -/

/-- The pins of this step. -/
def State.pinsNow (s : State) : Pins :=
  match s.pins with
  | p :: _ => p
  | [] => Pins.quiet

/-- The pins of this step are past. -/
def State.dropPins (s : State) : State := { s with pins := s.pins.tail }

end Sys2Proof.Machine
end

