-- ==== Sys2Proof/Machine/Transport.lean ====
section
/-! DEFINITION. Layer U: the six micro-operations at level T (40_transport_ops.md). Each is a transport operation
(`uop…`, a `Flow`) that `Flow.finish` ends by advancing or aborting. -/

namespace Sys2Proof.Machine

/-- RESET up to its end (R121); the presence sample goes to `PRES`. -/
def uopReset (s : State) : Flow :=
  match s.resetAnswer with
  | .presence => .ok (({ s.dropReset with pres := true }.logWire .reset).logCall (.reset .presence))
  | .noPresence =>
    .raised .noDevicePresent (({ s.dropReset with pres := false }.logWire .reset).logCall (.reset .noPresence))
  | .fault => .raised .transportTimingFault (s.dropReset.logCall (.reset .fault))

/-- WBYTE v up to its end (R125, R126). -/
def uopWbyte (v : Byte) (s : State) : Flow :=
  match writeByte v s with
  | .ok t => .ok (t.logCall (.wbyte v none))
  | .raised e t => .raised e (t.logCall (.wbyte v (some t.biti)))

/-- A single-bit write up to its end, common to WBIT and WBITP (R123, R129). -/
def uopWbit (b : Bool) (s : State) : Flow :=
  match wslot b s with
  | .ok t => .ok (t.logCall (.wbit b none))
  | .raised e t => .raised e (t.logCall (.wbit b (some 0)))

/-- WBITP k,i up to its end: the bit goes out as stored (R129, R65). -/
def uopWbitp (k i : Fin 8) (s : State) : Flow := uopWbit (patBit s.pat k i) s

/-- RBYTE d,k up to its end: the destination is written once, when the eighth slot has completed (R127). -/
def uopRbyte (d : Dest) (k : Fin 8) (s : State) : Flow :=
  match readByte s with
  | .ok t => .ok ((t.storeByte d k t.sr).logCall (.rbyte t.sr))
  | .raised e t => .raised e (t.logCall (.rbyteFault t.biti))

/-- WAIT10: the environment is not consulted, no fault can occur (R131). -/
def uopWait10 (s : State) : Flow := .ok (s.logCall .wait10)

/-- RESET (R121). -/
def execReset (s : State) : Host.Outcome State Fault Refusal := .next (uopReset s).finish

/-- WBYTE v (R125). -/
def execWbyte (v : Byte) (s : State) : Host.Outcome State Fault Refusal := .next (uopWbyte v s).finish

/-- WBIT b (R123). -/
def execWbit (b : Bool) (s : State) : Host.Outcome State Fault Refusal := .next (uopWbit b s).finish

/-- WBITP k,i (R129). -/
def execWbitp (k i : Fin 8) (s : State) : Host.Outcome State Fault Refusal := .next (uopWbitp k i s).finish

/-- RBYTE d,k (R127). -/
def execRbyte (d : Dest) (k : Fin 8) (s : State) : Host.Outcome State Fault Refusal := .next (uopRbyte d k s).finish

/-- WAIT10 (R131). -/
def execWait10 (s : State) : Host.Outcome State Fault Refusal := .next (uopWait10 s).finish

end Sys2Proof.Machine
end

