-- ==== Sys2Proof/Machine/Frames.lean ====
section
/-! DEFINITION. Layer W and the pseudo-instructions: each is a run of micro-operations (R101 to R103, R112; log 8). -/

namespace Sys2Proof.Machine

/-- RBYTE d,0 .. RBYTE d,7. -/
def readBytesSeq (d : Dest) : List (State → Flow) := indices.map fun k => uopRbyte d k

/-- WBITP k,0; WAIT10; ..; WBITP k,7; WAIT10 (R191). -/
def codecSeq (k : Fin 8) : List (State → Flow) := indices.flatMap fun i => [uopWbitp k i, uopWait10]

/-- RESET; WBYTE 0x33; RBYTE d,0 .. RBYTE d,7 (R200). -/
def romreadSeq (d : Dest) : List (State → Flow) := uopReset :: uopWbyte 0x33 :: readBytesSeq d

/-- WBYTE 0x33, then 64 read slots (R101). -/
def readRomSeq (d : Dest) : List (State → Flow) := uopWbyte 0x33 :: readBytesSeq d

/-- WBYTE 0xD1, one slot of the `arm` bit, WAIT10 (R102). -/
def writeControlSeq (arm : Bool) : List (State → Flow) := [uopWbyte 0xD1, uopWbit arm, uopWait10]

/-- WBYTE 0xD5, then the 64 pattern bits with a WAIT10 after each (R103). -/
def writeDataSeq : List (State → Flow) := uopWbyte 0xD5 :: indices.flatMap codecSeq

/-- The file the 64 read slots of OW_READ_ROM fill: OLDCODE in step ReadOld of a REWRITE, else ROMCODE, as the two
micro-programs have it (R203, R217; DEDUCED, log 8). -/
def State.frameDest (s : State) : Dest :=
  match s.op with
  | .read => .romcode
  | .rewrite => if s.upc ≤ 9 then .oldcode else .romcode

/-- OW_READ_ROM (R101). -/
def execOwReadRom (s : State) : Host.Outcome State Fault Refusal := .next (runSeq (readRomSeq s.frameDest) s)

/-- OW_WRITE_ENABLE (R102). -/
def execOwWriteEnable (s : State) : Host.Outcome State Fault Refusal := .next (runSeq (writeControlSeq false) s)

/-- OW_WRITE_DISABLE (R102). -/
def execOwWriteDisable (s : State) : Host.Outcome State Fault Refusal := .next (runSeq (writeControlSeq true) s)

/-- OW_WRITE_DATA (R103). -/
def execOwWriteData (s : State) : Host.Outcome State Fault Refusal := .next (runSeq writeDataSeq s)

/-- ROMREAD d (R200, R201). -/
def execRomread (d : Dest) (s : State) : Host.Outcome State Fault Refusal := .next (runSeq (romreadSeq d) s)

/-- CODEC k (R191). -/
def execCodec (k : Fin 8) (s : State) : Host.Outcome State Fault Refusal := .next (runSeq (codecSeq k) s)

end Sys2Proof.Machine
end

