-- ==== Sys2Proof/Machine/HostCommands.lean ====
section
/-! DEFINITION. Layer H: the four host commands (45_host_commands.md). -/

namespace Sys2Proof.Machine

/-- NOP: nothing is written (R253). -/
def execNop (s : State) : Host.Outcome State Fault Refusal := .next s

/-- READ: accepted while `BUSY = 0`, dropped while `BUSY = 1` (R252, R254, R255). -/
def execRead (s : State) : Host.Outcome State Fault Refusal :=
  .next (if s.busy then s else s.accept .read)

/-- REWRITE: accepted while `BUSY = 0`, the patterns latched in the same tick; dropped while `BUSY = 1` (R252, R254, R256). -/
def execRewrite (p : BitVec 64) (s : State) : Host.Outcome State Fault Refusal :=
  .next (if s.busy then s else (s.accept .rewrite).latchPat p)

/-- `cmd = 11`: treated exactly as NOP (R257). -/
def execReservedCmd (s : State) : Host.Outcome State Fault Refusal := .next s

end Sys2Proof.Machine
end

