-- ==== Sys2Proof/Machine/Dispatch.lean ====
section
/-! DEFINITION. One arm per constructor of `Instr`. -/

namespace Sys2Proof.Machine

def exec (i : Instr) (s : State) : Host.Outcome State Fault Refusal :=
  match i with
  | .nop => Sys2Proof.Machine.execNop s
  | .read => Sys2Proof.Machine.execRead s
  | .rewrite p => Sys2Proof.Machine.execRewrite p s
  | .reservedCmd => Sys2Proof.Machine.execReservedCmd s
  | .reset => Sys2Proof.Machine.execReset s
  | .wbyte v => Sys2Proof.Machine.execWbyte v s
  | .wbit b => Sys2Proof.Machine.execWbit b s
  | .wbitp k j => Sys2Proof.Machine.execWbitp k j s
  | .rbyte d k => Sys2Proof.Machine.execRbyte d k s
  | .wait10 => Sys2Proof.Machine.execWait10 s
  | .owReadRom => Sys2Proof.Machine.execOwReadRom s
  | .owWriteEnable => Sys2Proof.Machine.execOwWriteEnable s
  | .owWriteDisable => Sys2Proof.Machine.execOwWriteDisable s
  | .owWriteData => Sys2Proof.Machine.execOwWriteData s
  | .romread d => Sys2Proof.Machine.execRomread d s
  | .codec k => Sys2Proof.Machine.execCodec k s

end Sys2Proof.Machine
end

