-- ==== Sys2Proof/Machine/Fetch.lean ====
section
/-! DEFINITION. Where the next step's code word comes from (log 5), and how a word is placed there. -/

namespace Sys2Proof.Machine

/-- The word the next step runs: the placed word if there is one (log 5); else `prog(OP)[UPC]` while `BUSY = 1`
(R120); else the command at the pins (R252). -/
def State.nextWord (s : State) : Option CodeWord :=
  match s.slot with
  | some w => some w
  | none => if s.busy then s.programWord.map CodeWord.uop else some (.host s.pinsNow.word)

/-- The state a fetched instruction runs on: the pins of this step are past, the slot is empty. -/
def State.fetched (s : State) : State := { s.dropPins with slot := none }

/-- Decode a word and run it (U6: a reserved word is refused). -/
def runWord (w : CodeWord) (s : State) : Host.Outcome State Fault Refusal :=
  match decode w with
  | .ok i => exec i s
  | .rejected r => .refused (.undecodable r)

/-- One step outside reset. -/
def runNext (s : State) : Host.Outcome State Fault Refusal :=
  match s.nextWord with
  | some w => runWord w s.fetched
  | none => .fault .noMicroOperation

/-- A word placed where the next step takes its word from: a HOSTCMD word at the pins of an idle core (R252), any
other in the slot of a core that runs a command (R120); the pins are otherwise quiet. -/
def State.placeWord (s : State) (c : CodeWord) : State :=
  match c with
  | .host w => { s with slot := none, busy := false, pins := Pins.ofWord w :: s.pins }
  | .uop w => { s with slot := some (.uop w), busy := true, pins := Pins.quiet :: s.pins }
  | .bus8 w => { s with slot := some (.bus8 w), busy := true, pins := Pins.quiet :: s.pins }
  | .bus9 w => { s with slot := some (.bus9 w), busy := true, pins := Pins.quiet :: s.pins }
  | .romread w => { s with slot := some (.romread w), busy := true, pins := Pins.quiet :: s.pins }
  | .codec w => { s with slot := some (.codec w), busy := true, pins := Pins.quiet :: s.pins }

/-- A table word of `nbits` bits placed; a word of no format leaves the state alone. -/
def State.placeTableWord (s : State) (nbits w : Nat) : State :=
  match tableWord nbits w with
  | some c => s.placeWord c
  | none => s

end Sys2Proof.Machine
end

