-- ==== Sys2Proof/Machine/Step.lean ====
section
/-! DEFINITION. One step of level T: `rst`, else one micro-operation or one host command (R7, R120, R252, R296). -/

namespace Sys2Proof.Machine

/-- `rst = 1` overrides everything (R296, R310). -/
def step (s : State) : Host.Outcome State Fault Refusal :=
  if s.pinsNow.rst then .next s.dropPins.applyReset else runNext s

/-- The state whose very next step runs the table word `w` (log 5). -/
def State.withFetchWord (s : State) (nbits w : Nat) : State := s.placeTableWord nbits w

end Sys2Proof.Machine
end

