-- ==== Sys2Proof/Machine/Tick.lean ====
section
/-! DEFINITION. Level L: the bit-slot timing controller, one clock cycle a step (41_slot_timing.md), over the same
State. The timing parameters are an argument (R11), the pins and the line sample `in(n)` of the tick are another. -/

namespace Sys2Proof.Machine

/-- What the core samples in one tick (R45, R46). -/
structure TickIn where
  pins : Pins
  owIn : Bool
  deriving DecidableEq, Repr

/-- A line operation (R153). -/
inductive LineOp where
  | reset
  | write (b : Bool)
  | read
  | wait
  deriving DecidableEq, Repr

/-- The low time of a line operation (R160, R163, R167, R172). -/
def LineOp.low (T : Timing) (o : LineOp) : Nat :=
  match o with
  | .reset => T.tH
  | .write b => if b then T.tA else T.tC
  | .read => T.tA
  | .wait => 0

/-- The length of a line operation (R160, R163, R167, R172). -/
def LineOp.len (T : Timing) (o : LineOp) : Nat :=
  match o with
  | .reset => T.tH + T.tI + T.tJ
  | .write b => if b then T.tA + T.tB else T.tC + T.tD
  | .read => T.tA + T.tE + T.tF
  | .wait => T.tSettle

/-- The line operation a micro-operation is performing (R170): a byte is eight slots, counted by `BITI`. -/
def lineOp (i : Instr) (s : State) : Option LineOp :=
  match i with
  | .reset => some .reset
  | .wbyte v => some (.write (v.getLsbD s.biti.toNat))
  | .wbit b => some (.write b)
  | .wbitp k j => some (.write (patBit s.pat k j))
  | .rbyte _ _ => some .read
  | .wait10 => some .wait
  | .nop => none
  | .read => none
  | .rewrite _ => none
  | .reservedCmd => none
  | .owReadRom => none
  | .owWriteEnable => none
  | .owWriteDisable => none
  | .owWriteData => none
  | .romread _ => none
  | .codec _ => none

/-- `ow_oe` in this tick (R154): low during the first `low` ticks, if the idle check of the first one passed. -/
def driveLow (T : Timing) (o : LineOp) (n : Nat) (inp : Bool) : Bool := n < o.low T && (n != 0 || inp)

/-- The output `ow_oe` during this tick, `oe(n)` (R45, R154): the running operation's timeline, whatever `rst` is (R312
releases the line only from the next tick); released while idle (R151). -/
def State.owOe (s : State) (T : Timing) (x : TickIn) : Bool :=
  if s.busy then
    match s.programInstr with
    | some i =>
      match lineOp i s with
      | some o => driveLow T o s.tcnt.toNat x.owIn
      | none => false
    | none => false
  else false

/-- Does a line check fail in tick `n` of the operation: the idle check (R158) or the drive check (R159)? -/
def lineFault (T : Timing) (o : LineOp) (n : Nat) (inp : Bool) : Bool :=
  match o with
  | .wait => false
  | .reset => (n == 0 && !inp) || (n == o.low T && inp)
  | .write _ => (n == 0 && !inp) || (n == o.low T && inp)
  | .read => (n == 0 && !inp) || (n == o.low T && inp)

/-- The sample of tick `n`: presence (R160) or data (R167, R168). -/
def State.sample (s : State) (T : Timing) (o : LineOp) (n : Nat) (inp : Bool) : State :=
  match o with
  | .reset => if n = T.tH + T.tI then { s with pres := !inp } else s
  | .read => if n = T.tA + T.tE then s.shiftIn inp else s
  | .write _ => s
  | .wait => s

/-- `SR <- 0` as an RBYTE starts (R170; in its first tick, log 10). -/
def State.startByte (s : State) (o : LineOp) : State :=
  if o = .read ∧ s.tcnt = 0 ∧ s.biti = 0 then { s with sr := 0 } else s

/-- The trace event of a call that faults (R17, R135). -/
def faultEvent (i : Instr) (s : State) : Option Event :=
  match i with
  | .reset => some (.reset .fault)
  | .wbyte v => some (.wbyte v (some s.biti))
  | .wbit b => some (.wbit b (some 0))
  | .wbitp k j => some (.wbit (patBit s.pat k j) (some 0))
  | .rbyte _ _ => some (.rbyteFault s.biti)
  | .wait10 => none
  | .nop => none
  | .read => none
  | .rewrite _ => none
  | .reservedCmd => none
  | .owReadRom => none
  | .owWriteEnable => none
  | .owWriteDisable => none
  | .owWriteData => none
  | .romread _ => none
  | .codec _ => none

/-- A line check failed: TransportTimingFault, in this tick (R158, R159, R273). -/
def State.lineAbort (s : State) (i : Instr) : State :=
  { s with trace := s.trace ++ (faultEvent i s).toList }.abort .transportTimingFault

/-- The last tick of a line operation has passed (R161, R165, R168, R170, R172): the micro-operation ends, or the next
slot of its byte follows with no gap (R153). -/
def endLineOp (i : Instr) (s : State) : State :=
  match i with
  | .reset =>
    if s.pres then ((s.logWire .reset).logCall (.reset .presence)).advance
    else ((s.logWire .reset).logCall (.reset .noPresence)).abort .noDevicePresent
  | .wbyte v =>
    let t := (s.logWire (.w (v.getLsbD s.biti.toNat))).nextBit
    if s.biti = 7 then (t.logCall (.wbyte v none)).advance else t
  | .wbit b => ((s.logWire (.w b)).logCall (.wbit b none)).advance
  | .wbitp k j => ((s.logWire (.w (patBit s.pat k j))).logCall (.wbit (patBit s.pat k j) none)).advance
  | .rbyte d k =>
    let t := (s.logWire (.r (s.sr.getLsbD s.biti.toNat))).nextBit
    if s.biti = 7 then ((t.storeByte d k t.sr).logCall (.rbyte t.sr)).advance else t
  | .wait10 => (s.logCall .wait10).advance
  | .nop => s
  | .read => s
  | .rewrite _ => s
  | .reservedCmd => s
  | .owReadRom => s
  | .owWriteEnable => s
  | .owWriteDisable => s
  | .owWriteData => s
  | .romread _ => s
  | .codec _ => s

/-- One tick of a running line operation: the checks, then the sample, then the end or the next tick (R295). -/
def tickLine (T : Timing) (inp : Bool) (i : Instr) (o : LineOp) (s : State) : State :=
  let n := s.tcnt.toNat
  let t := { s.startByte o with oe := driveLow T o n inp }
  if lineFault T o n inp then t.lineAbort i
  else
    let u := t.sample T o n inp
    if n + 1 = o.len T then endLineOp i { u with tcnt := 0 } else { u with tcnt := u.tcnt + 1 }

/-- One tick while `BUSY = 1`: the pins but `rst` are not looked at (R254, R290). -/
def tickBusy (T : Timing) (inp : Bool) (s : State) : Host.Outcome State Fault Refusal :=
  match s.programInstr with
  | some i =>
    match lineOp i s with
    | some o => .next (tickLine T inp i o s)
    | none => .fault .noMicroOperation
  | none => .fault .noMicroOperation

/-- One tick while `BUSY = 0`: the line is released (R151) and the command at the pins is sampled (R252). -/
def tickIdle (p : Pins) (s : State) : Host.Outcome State Fault Refusal :=
  exec (decodeHost p.word) { s with oe := false }

/-- One clock cycle: `rst` (R310), a line operation, or command sampling (R252). A `rst` writes no trace event for the
call it cuts: the spec gives a cut call no event form (DESIGN CHOICE, log 30). `ow_oe` of the cycle is `State.owOe`. -/
def tick (T : Timing) (x : TickIn) (s : State) : Host.Outcome State Fault Refusal :=
  if x.pins.rst then .next s.applyReset
  else if s.busy then tickBusy T x.owIn s
  else tickIdle x.pins s

/-- `n` ticks from tick `t0` on, of a block whose pins and line are `xs`. -/
def runTicks (T : Timing) (xs : Nat → TickIn) (t0 n : Nat) (s : State) : Host.Outcome State Fault Refusal :=
  match n with
  | 0 => .next s
  | m + 1 =>
    match tick T (xs t0) s with
    | .next t => runTicks T xs (t0 + 1) m t
    | .fault r => .fault r
    | .refused r => .refused r

end Sys2Proof.Machine
end

