-- ==== Sys2Proof/Machine/Projection.lean ====
section
/-! DEFINITION. From level L to level T: the oracle answers a line function projects to (R176), and how many ticks
each operation takes (R180 to R182). -/

namespace Sys2Proof.Machine

/-- `EnvReset()` for a RESET that starts at `t0` (R176). -/
def envResetOf (T : Timing) (line : Nat → Bool) (t0 : Nat) : ResetAnswer :=
  if !line t0 || line (t0 + T.tH) then .fault
  else if !line (t0 + T.tH + T.tI) then .presence
  else .noPresence

/-- `EnvWriteBit(b)` for a write slot that starts at `t0` (R176). -/
def envWriteOf (T : Timing) (line : Nat → Bool) (t0 : Nat) (b : Bool) : WriteAnswer :=
  if !line t0 || line (t0 + (LineOp.write b).low T) then .fault else .ok

/-- `EnvReadBit()` for a read slot that starts at `t0` (R176). -/
def envReadOf (T : Timing) (line : Nat → Bool) (t0 : Nat) : ReadAnswer :=
  if !line t0 || line (t0 + T.tA) then .fault else .bit (line (t0 + T.tA + T.tE))

/-- How many ticks of a line operation that starts at `t0` pass: 1 when the idle check fails, `L+1` when the drive
check fails, else its length (R180). -/
def lineTicks (T : Timing) (line : Nat → Bool) (t0 : Nat) (o : LineOp) : Nat :=
  if !line t0 then 1
  else if line (t0 + o.low T) then o.low T + 1
  else o.len T

/-- The answers a micro-operation gets and the ticks it takes. -/
structure Answers where
  resets : List ResetAnswer
  writes : List WriteAnswer
  reads : List ReadAnswer
  ticks : Nat
  deriving DecidableEq, Repr

/-- Write slots back to back, up to the first fault. -/
def projectWrites (T : Timing) (line : Nat → Bool) (t0 : Nat) (bits : List Bool) : Answers :=
  match bits with
  | [] => ⟨[], [], [], 0⟩
  | b :: rest =>
    let n := lineTicks T line t0 (.write b)
    match envWriteOf T line t0 b with
    | .fault => ⟨[], [.fault], [], n⟩
    | .ok =>
      let p := projectWrites T line (t0 + n) rest
      ⟨[], .ok :: p.writes, [], n + p.ticks⟩

/-- `k` read slots back to back, up to the first fault. -/
def projectReads (T : Timing) (line : Nat → Bool) (t0 k : Nat) : Answers :=
  match k with
  | 0 => ⟨[], [], [], 0⟩
  | m + 1 =>
    let n := lineTicks T line t0 .read
    match envReadOf T line t0 with
    | .fault => ⟨[], [], [.fault], n⟩
    | .bit b =>
      let p := projectReads T line (t0 + n) m
      ⟨[], [], .bit b :: p.reads, n + p.ticks⟩

/-- The answers to one micro-operation that starts at `t0` (R176); for anything else, none. -/
def project (T : Timing) (line : Nat → Bool) (t0 : Nat) (pat : Bytes8) (i : Instr) : Answers :=
  match i with
  | .reset => ⟨[envResetOf T line t0], [], [], lineTicks T line t0 .reset⟩
  | .wbyte v => projectWrites T line t0 (byteBits v)
  | .wbit b => projectWrites T line t0 [b]
  | .wbitp k j => projectWrites T line t0 [patBit pat k j]
  | .rbyte _ _ => projectReads T line t0 8
  | .wait10 => ⟨[], [], [], T.tSettle⟩
  | .nop => ⟨[], [], [], 0⟩
  | .read => ⟨[], [], [], 0⟩
  | .rewrite _ => ⟨[], [], [], 0⟩
  | .reservedCmd => ⟨[], [], [], 0⟩
  | .owReadRom => ⟨[], [], [], 0⟩
  | .owWriteEnable => ⟨[], [], [], 0⟩
  | .owWriteDisable => ⟨[], [], [], 0⟩
  | .owWriteData => ⟨[], [], [], 0⟩
  | .romread _ => ⟨[], [], [], 0⟩
  | .codec _ => ⟨[], [], [], 0⟩

/-- The state with these answers coming first. -/
def State.withAnswers (s : State) (p : Answers) : State :=
  { s with
    ansReset := p.resets ++ s.ansReset, ansWrite := p.writes ++ s.ansWrite, ansRead := p.reads ++ s.ansRead }

/-- The ticks of a micro-operation that completes (R180); for anything else, 0. -/
def instrTicks (T : Timing) (pat : Bytes8) (i : Instr) : Nat :=
  match i with
  | .reset => LineOp.reset.len T
  | .wbyte v => ((byteBits v).map fun b => (LineOp.write b).len T).sum
  | .wbit b => (LineOp.write b).len T
  | .wbitp k j => (LineOp.write (patBit pat k j)).len T
  | .rbyte _ _ => 8 * LineOp.read.len T
  | .wait10 => T.tSettle
  | .nop => 0
  | .read => 0
  | .rewrite _ => 0
  | .reservedCmd => 0
  | .owReadRom => 0
  | .owWriteEnable => 0
  | .owWriteDisable => 0
  | .owWriteData => 0
  | .romread _ => 0
  | .codec _ => 0

/-- The micro-operations of a program. -/
def progInstrs (o : Op) : List Instr := (progWords o).filterMap fun w => (decodeUop w).toOption

/-- The ticks of a complete command (R181, R182). -/
def commandTicks (T : Timing) (pat : Bytes8) (o : Op) : Nat := ((progInstrs o).map (instrTicks T pat)).sum

end Sys2Proof.Machine
end

