-- ==== Sys2Proof/Machine/SimSlave.lean ====
section
/-! DEFINITION. The reference slave of 95_test_vectors.md section 3, the test harness of the spec's end-to-end law
(R238, D24). It is NOT part of the block and no model of a real device: it answers the level T oracle, and the
machine's own definitions do not use it. -/

namespace Sys2Proof.Machine

/-- The modes of the reference slave. -/
inductive SlaveMode where
  | idle
  | cmd
  | read
  | ctrl
  | data
  deriving DecidableEq, Repr

/-- The state of the reference slave; `shift` is the command byte coming in, `count` the shift count. -/
structure Slave where
  rom : Bytes8
  writable : Bool
  present : Bool
  armed : Bool
  mode : SlaveMode
  shift : Byte
  count : Fin 64
  deriving DecidableEq, Repr

/-- The byte index of position `8k+i`. -/
def posByte (p : Fin 64) : Fin 8 := ⟨p.val / 8, by omega⟩

/-- The bit index of position `8k+i`. -/
def posBit (p : Fin 64) : BitVec 3 := BitVec.ofNat 3 p.val

/-- `EnvReset()`: with the slave present, back to command mode. -/
def Slave.onReset (d : Slave) : ResetAnswer × Slave :=
  if d.present then (.presence, { d with mode := .cmd, shift := 0, count := 0 }) else (.noPresence, d)

/-- The command byte is complete. -/
def Slave.select (d : Slave) (v : Byte) : Slave :=
  if v = 0x33 then { d with mode := .read, count := 0 }
  else if v = 0xD1 then { d with mode := .ctrl }
  else if v = 0xD5 then
    if d.armed && d.writable then { d with mode := .data, count := 0 } else { d with mode := .idle }
  else { d with mode := .idle }

/-- `EnvWriteBit(b)`; the answer is always Ok. -/
def Slave.onWrite (d : Slave) (b : Bool) : Slave :=
  match d.mode with
  | .cmd =>
    let v := setBit d.shift (posBit d.count) b
    if d.count = 7 then { d with shift := v }.select v else { d with shift := v, count := d.count + 1 }
  | .ctrl => { d with armed := if d.writable then !b else d.armed, mode := .idle }
  | .data =>
    let k := posByte d.count
    let t := { d with rom := d.rom.set k (setBit d.rom[k] (posBit d.count) !b) }
    if d.count = 63 then { t with mode := .idle } else { t with count := d.count + 1 }
  | .idle => d
  | .read => d

/-- `EnvReadBit()`; after position 63 the slave has nothing more to send. -/
def Slave.onRead (d : Slave) : Bool × Slave :=
  match d.mode with
  | .read =>
    let b := (d.rom[posByte d.count]).getLsbD (posBit d.count).toNat
    (b, if d.count = 63 then { d with mode := .idle } else { d with count := d.count + 1 })
  | .idle => (true, d)
  | .cmd => (true, d)
  | .ctrl => (true, d)
  | .data => (true, d)

/-- The slave after a list of write slots. -/
def Slave.onWrites (d : Slave) (bits : List Bool) : Slave := bits.foldl Slave.onWrite d

/-- The bits of `n` read slots, and the slave after them. -/
def Slave.onReads (n : Nat) (d : Slave) : List Bool × Slave :=
  match n with
  | 0 => ([], d)
  | m + 1 =>
    let r := Slave.onReads m d.onRead.2
    (d.onRead.1 :: r.1, r.2)

/-- The slave's answers to one micro-operation. -/
def Slave.answer (d : Slave) (pat : Bytes8) (i : Instr) : Answers × Slave :=
  match i with
  | .reset => (⟨[d.onReset.1], [], [], 0⟩, d.onReset.2)
  | .wbyte v => (⟨[], (byteBits v).map fun _ => .ok, [], 0⟩, d.onWrites (byteBits v))
  | .wbit b => (⟨[], [.ok], [], 0⟩, d.onWrite b)
  | .wbitp k j => (⟨[], [.ok], [], 0⟩, d.onWrite (patBit pat k j))
  | .rbyte _ _ => (⟨[], [], (Slave.onReads 8 d).1.map ReadAnswer.bit, 0⟩, (Slave.onReads 8 d).2)
  | .wait10 => (⟨[], [], [], 0⟩, d)
  | .nop => (⟨[], [], [], 0⟩, d)
  | .read => (⟨[], [], [], 0⟩, d)
  | .rewrite _ => (⟨[], [], [], 0⟩, d)
  | .reservedCmd => (⟨[], [], [], 0⟩, d)
  | .owReadRom => (⟨[], [], [], 0⟩, d)
  | .owWriteEnable => (⟨[], [], [], 0⟩, d)
  | .owWriteDisable => (⟨[], [], [], 0⟩, d)
  | .owWriteData => (⟨[], [], [], 0⟩, d)
  | .romread _ => (⟨[], [], [], 0⟩, d)
  | .codec _ => (⟨[], [], [], 0⟩, d)

/-- The running command, at most `n` micro-operations of it, with the slave on the line. -/
def closedRun (n : Nat) (d : Slave) (s : State) : Slave × State :=
  match n with
  | 0 => (d, s)
  | m + 1 =>
    if s.busy then
      match s.programInstr with
      | some i =>
        match exec i (s.withAnswers (d.answer s.pat i).1) with
        | .next t => closedRun m (d.answer s.pat i).2 t
        | .fault _ => (d, s)
        | .refused _ => (d, s)
      | none => (d, s)
    else (d, s)

end Sys2Proof.Machine
end

