-- ==== Sys2Proof/Safety.lean ====
section
/-! DEFINITION. What the statements call a legal state, at level T and at level L, and the words in which they speak
of traces. -/

namespace Sys2Proof.Machine

/-- `UPC` has a legal value, and is 0 while `BUSY = 0` (R30). -/
abbrev State.LegalUpc (s : State) : Prop :=
  (s.busy = true → s.upc.toNat < progLen s.op) ∧ (s.busy = false → s.upc = 0)

/-- While a command runs, nothing is reported but OLDVALID, which is 1 from micro-operation 10 of a REWRITE on
(R37, R38, R39). -/
abbrev State.BusyFlags (s : State) : Prop :=
  s.busy = true →
    s.done = false ∧ s.valid = false ∧ s.matched = false ∧ s.err = .none ∧ s.fstep = .idle ∧
      (s.oldvalid = true ↔ s.op = .rewrite ∧ 10 ≤ s.upc.toNat)

/-- What the flags say of each other (R37, R38, R39, R274; 95_test_vectors.md section 6). -/
abbrev State.EndFlags (s : State) : Prop :=
  (s.valid = true → s.done = true ∧ s.fstep = .idle ∧ (s.op = .rewrite → s.oldvalid = true ∧ s.matched = s.matches)) ∧
  (s.matched = true → s.valid = true ∧ s.op = .rewrite ∧ s.err = .none) ∧
  (s.oldvalid = true → s.op = .rewrite) ∧
  (s.err.Aborts → s.done = true ∧ s.valid = false) ∧
  (s.err = .verificationMismatch ↔ s.valid = true ∧ s.op = .rewrite ∧ s.matched = false) ∧
  (s.fstep ≠ .idle ↔ s.err.Aborts) ∧
  (s.busy = false → s.done = false → s.oldvalid = false ∧ s.err = .none) ∧
  (s.done = true → s.valid = false → s.err.Aborts)

/-- The flags are legal. -/
abbrev State.Legal (s : State) : Prop := s.LegalUpc ∧ s.BusyFlags ∧ s.EndFlags

/-- No line operation is in progress: the states between two steps of level T. -/
abbrev State.AtBoundary (s : State) : Prop := s.tcnt = 0 ∧ s.biti = 0 ∧ s.oe = false

/-- Every register of 10_state.md is 0 (R55). -/
abbrev State.RegistersZero (s : State) : Prop :=
  (∀ k : Fin 8, s.pat[k] = 0 ∧ s.romcode[k] = 0 ∧ s.oldcode[k] = 0) ∧
  (s.upc = 0 ∧ s.op = .read ∧ s.busy = false ∧ s.done = false ∧ s.valid = false ∧ s.oldvalid = false) ∧
  (s.matched = false ∧ s.err = .none ∧ s.fstep = .idle) ∧
  (s.tcnt = 0 ∧ s.biti = 0 ∧ s.sr = 0 ∧ s.pres = false ∧ s.oe = false)

/-- The invariant of level T: legal flags, no line operation in progress, no placed word (log 5). -/
abbrev State.Inv (s : State) : Prop := s.Legal ∧ s.AtBoundary ∧ s.slot = none

/-- Is the micro-operation a byte, eight slots (R170)? -/
def isByteOp (i : Instr) : Bool :=
  match i with
  | .wbyte _ => true
  | .rbyte _ _ => true
  | .nop => false
  | .read => false
  | .rewrite _ => false
  | .reservedCmd => false
  | .reset => false
  | .wbit _ => false
  | .wbitp _ _ => false
  | .wait10 => false
  | .owReadRom => false
  | .owWriteEnable => false
  | .owWriteDisable => false
  | .owWriteData => false
  | .romread _ => false
  | .codec _ => false

/-- A tick inside a line operation: `TCNT` is below its length, `BITI` counts only inside a byte (R50, R153). -/
def State.lineOk (s : State) (T : Timing) : Bool :=
  match s.programInstr with
  | some i =>
    match lineOp i s with
    | some o => decide (s.tcnt.toNat < o.len T) && (s.biti == 0 || isByteOp i)
    | none => false
  | none => false

/-- The invariant of level L (R50, R151, R153). -/
abbrev State.TickInv (s : State) (T : Timing) : Prop :=
  s.Legal ∧ (s.busy = true → s.lineOk T = true) ∧ (s.busy = false → s.AtBoundary)

/-- The kind of a transport call or wait, whatever came back (R17, R135). -/
inductive Call where
  | reset
  | wbyte (v : Byte)
  | wbit (b : Bool)
  | rbyte
  | wait10
  deriving DecidableEq, Repr

/-- The call an event records. -/
def Event.call (e : Event) : Call :=
  match e with
  | .reset _ => .reset
  | .wbyte v _ => .wbyte v
  | .wbit b _ => .wbit b
  | .rbyte _ => .rbyte
  | .rbyteFault _ => .rbyte
  | .wait10 => .wait10

/-- Did the call end the command by an error (R17)? -/
def Event.failed (e : Event) : Bool :=
  match e with
  | .reset a => a != .presence
  | .wbyte _ f => f.isSome
  | .wbit _ f => f.isSome
  | .rbyte _ => false
  | .rbyteFault _ => true
  | .wait10 => false

/-- The calls of a complete READ (R206): RESET, WBYTE 0x33, eight RBYTE. -/
def readCalls : List Call := [.reset, .wbyte 0x33] ++ List.replicate 8 .rbyte

/-- The calls of a complete REWRITE of these patterns (R236). -/
def rewriteCalls (pat : Bytes8) : List Call :=
  readCalls ++ ([Call.reset, Call.wbyte 0xD1, Call.wbit false, Call.wait10, Call.reset, Call.wbyte 0xD5] ++
    ((indices.flatMap fun k => indices.flatMap fun i => [Call.wbit (patBit pat k i), Call.wait10]) ++
    ([Call.reset, Call.wbyte 0xD1, Call.wbit true, Call.wait10] ++ readCalls)))

/-- The calls of a complete command. -/
def commandCalls (pat : Bytes8) (o : Op) : List Call :=
  match o with
  | .read => readCalls
  | .rewrite => rewriteCalls pat

/-- How many transport calls a trace holds: WAIT10 is none (R135). -/
def transportCalls (tr : List Event) : Nat := (tr.filter fun e => e != .wait10).length

/-- `n` steps of level T, stopping at the first fault or refusal. -/
def runSteps (n : Nat) (s : State) : Host.Outcome State Fault Refusal :=
  match n with
  | 0 => .next s
  | m + 1 =>
    match step s with
    | .next t => runSteps m t
    | .fault r => .fault r
    | .refused r => .refused r

/-- The pins give the command `o` (R91, R252). -/
abbrev Pins.Gives (p : Pins) (o : Op) : Prop :=
  p.rst = false ∧ (match o with
    | .read => p.cmdWrite = false ∧ p.cmdRead = true
    | .rewrite => p.cmdWrite = true ∧ p.cmdRead = false)

/-- An idle, legal core to which the host gives one command and then nothing more. -/
abbrev State.CommandGiven (s : State) (p : Pins) (o : Op) : Prop :=
  s.Inv ∧ s.busy = false ∧ s.pins = [p] ∧ p.Gives o

end Sys2Proof.Machine
end

