-- ==== Sys2Proof/Certificates/Slice0/Obligations.lean ====
section
/-! DEFINITION. The statements. `R<n>` is a rule of spec/, `log <n>` an entry of notes/assumptions. -/

open Sys2Proof Sys2Proof.Machine

/-! ### Encoding -/

/-- Decode and encode agree, for every instruction with every operand at every value. -/
def Obligations.EveryInstructionRoundTrips : Prop :=
  ∀ i : Instr, decode (encode i) = .ok i

/-- No bit of a word is dropped: outside HOSTCMD, whose READ, NOP and reserved words have ignored bits (R91), a word
that decodes is the encoding of what it decodes to. -/
def Obligations.DecodedWordsAreEncodings : Prop :=
  ∀ (c : CodeWord) (i : Instr), (∀ w, c ≠ .host w) → decode c = .ok i → encode i = c

/-- Reserved kinds and non-zero must-be-zero bits are no micro-operation (R97), and a step refuses a placed word
that is none (U6). -/
def Obligations.ReservedWordsRefused : Prop :=
  (∀ w : BitVec 11, w.extractLsb' 8 3 = 0b110#3 ∨ w.extractLsb' 8 3 = 0b111#3 →
    decode (.uop w) = .rejected .reservedKind) ∧
  (∀ w : BitVec 11, w.extractLsb' 8 3 = 0b000#3 ∨ w.extractLsb' 8 3 = 0b101#3 → w.extractLsb' 0 8 ≠ 0#8 →
    decode (.uop w) = .rejected .mustBeZero) ∧
  (∀ w : BitVec 11, w.extractLsb' 8 3 = 0b010#3 → w.extractLsb' 1 7 ≠ 0#7 →
    decode (.uop w) = .rejected .mustBeZero) ∧
  (∀ w : BitVec 11, w.extractLsb' 8 3 = 0b011#3 → w.extractLsb' 6 2 ≠ 0#2 →
    decode (.uop w) = .rejected .mustBeZero) ∧
  (∀ w : BitVec 11, w.extractLsb' 8 3 = 0b100#3 → w.extractLsb' 4 4 ≠ 0#4 →
    decode (.uop w) = .rejected .mustBeZero) ∧
  (∀ (s : State) (c : CodeWord) (r : DecodeReject),
    s.pinsNow.rst = false → s.slot = some c → decode c = .rejected r → step s = .refused (.undecodable r))

/-- Words written out from the tables of R96, R101, R102, R203 and R217. -/
def Obligations.SpecWordsDecode : Prop :=
  decode (.uop 0b00000000000) = .ok .reset ∧
  decode (.uop 0b00100110011) = .ok (.wbyte 0x33) ∧
  decode (.uop 0b00111010101) = .ok (.wbyte 0xD5) ∧
  decode (.uop 0b01000000001) = .ok (.wbit true) ∧
  decode (.uop 0b01100001011) = .ok (.wbitp 1 3) ∧
  decode (.uop 0b10000001010) = .ok (.rbyte .oldcode 2) ∧
  decode (.uop 0b10000000111) = .ok (.rbyte .romcode 7) ∧
  decode (.uop 0b10100000000) = .ok .wait10 ∧
  decode (.bus8 0b00110011) = .ok .owReadRom ∧
  decode (.bus9 0b011010001) = .ok .owWriteEnable ∧
  decode (.bus9 0b111010001) = .ok .owWriteDisable ∧
  decode (.bus8 0b11010101) = .ok .owWriteData

/-- Format HOSTCMD and its four commands (R91); no encoding of layer H is refused (R108). -/
def Obligations.HostCommandTable : Prop :=
  ∀ p : BitVec 64,
    decode (.host (0b00#2 ++ p)) = .ok .nop ∧ decode (.host (0b01#2 ++ p)) = .ok .read ∧
    decode (.host (0b10#2 ++ p)) = .ok (.rewrite p) ∧ decode (.host (0b11#2 ++ p)) = .ok .reservedCmd

/-! ### Host commands -/

/-- R253. -/
def Obligations.NopWritesNothing : Prop :=
  ∀ s : State, exec .nop s = .next s

/-- R257. -/
def Obligations.ReservedCommandActsAsNop : Prop :=
  ∀ s : State, exec .reservedCmd s = exec .nop s ∧ exec .reservedCmd s = .next s

/-- R254: while BUSY = 1 neither the command nor `pat_in` has any effect, at either level. -/
def Obligations.CommandWhileBusyIsDropped : Prop :=
  (∀ (s : State) (p : BitVec 64), s.busy = true →
    exec .nop s = .next s ∧ exec .read s = .next s ∧ exec (.rewrite p) s = .next s ∧
      exec .reservedCmd s = .next s) ∧
  (∀ (s : State) (p q : Pins) (l : List Pins), s.busy = true → s.slot = none → p.rst = false → q.rst = false →
    step { s with pins := p :: l } = step { s with pins := q :: l }) ∧
  (∀ (T : Timing) (s : State) (p q : Pins) (inp : Bool), s.busy = true → p.rst = false → q.rst = false →
    tick T ⟨p, inp⟩ s = tick T ⟨q, inp⟩ s)

/-- R255: acceptance of READ; nothing else is written. -/
def Obligations.ReadIsAccepted : Prop :=
  ∀ s : State, s.busy = false → exec .read s = .next { s with
    op := .read, upc := 0, busy := true, done := false, valid := false, oldvalid := false, matched := false,
    err := .none, fstep := .idle }

/-- R256: acceptance of REWRITE, the patterns latched; nothing else is written. -/
def Obligations.RewriteIsAccepted : Prop :=
  ∀ (s : State) (p : BitVec 64), s.busy = false →
    ∃ t : State, exec (.rewrite p) s = .next t ∧ (∀ k : Fin 8, t.pat[k] = p.extractLsb' (8 * k.val) 8) ∧
      t = { s with
        pat := t.pat, op := .rewrite, upc := 0, busy := true, done := false, valid := false, oldvalid := false,
        matched := false, err := .none, fstep := .idle }

/-! ### The step -/

/-- Outside reset a step decodes one word and runs it, the pins of the step past and the slot empty. The word is the
placed one (log 5), else `prog(OP)[UPC]` while BUSY = 1 (R120), else the command at the pins (R252). At level L a tick
of an idle core runs the command at the pins on the released line, and a tick of a running core a tick of the line
operation of `prog(OP)[UPC]` (R153, R170). -/
def Obligations.StepRunsTheDecodedInstruction : Prop :=
  (∀ (s : State) (c : CodeWord) (i : Instr), s.pinsNow.rst = false → s.nextWord = some c → decode c = .ok i →
    step s = exec i { s with pins := s.pins.tail, slot := none }) ∧
  (∀ (s : State) (c : CodeWord), s.slot = some c → s.nextWord = some c) ∧
  (∀ s : State, s.slot = none → s.busy = true → s.nextWord = (progWords s.op)[s.upc.toNat]?.map CodeWord.uop) ∧
  (∀ (s : State) (p : Pins) (l : List Pins), s.slot = none → s.busy = false → s.pins = p :: l →
    s.nextWord = some (.host (BitVec.ofBool p.cmdWrite ++ BitVec.ofBool p.cmdRead ++ p.patIn))) ∧
  (∀ s : State, s.slot = none → s.busy = false → s.pins = [] →
    s.pinsNow.rst = false ∧ s.nextWord = some (.host 0)) ∧
  (∀ (T : Timing) (x : TickIn) (s : State) (i : Instr), x.pins.rst = false → s.busy = false →
    decode (.host (BitVec.ofBool x.pins.cmdWrite ++ BitVec.ofBool x.pins.cmdRead ++ x.pins.patIn)) = .ok i →
    tick T x s = exec i { s with oe := false }) ∧
  (∀ (T : Timing) (x : TickIn) (s : State) (w : BitVec 11) (i : Instr) (o : LineOp), x.pins.rst = false →
    s.busy = true → (progWords s.op)[s.upc.toNat]? = some w → decode (.uop w) = .ok i → lineOp i s = some o →
    tick T x s = .next (tickLine T x.owIn i o s))

/-- A table word placed from outside is what the very next step runs (log 5, the model's own): a HOSTCMD word on an
idle core, any other on a running one. -/
def Obligations.PlacedWordRunsNext : Prop :=
  (∀ (s : State) (nbits w : Nat) (x : BitVec 66) (i : Instr), tableWord nbits w = some (.host x) →
    decodeTableWord nbits w = some i →
    step (s.withFetchWord nbits w) = exec i { s with slot := none, busy := false }) ∧
  (∀ (s : State) (nbits w : Nat) (c : CodeWord) (i : Instr), tableWord nbits w = some c → (∀ x, c ≠ .host x) →
    decodeTableWord nbits w = some i →
    step (s.withFetchWord nbits w) = exec i { s with slot := none, busy := true })

/-- R310: `rst` clears every register, at level T and in any tick of level L, whatever else is happening. -/
def Obligations.RstClearsEveryRegister : Prop :=
  (∀ s : State, s.pinsNow.rst = true →
    ∃ t : State, step s = .next t ∧ t.RegistersZero ∧ t.status = 0 ∧ t.romOut = 0 ∧ t.oldOut = 0) ∧
  (∀ (T : Timing) (x : TickIn) (s : State), x.pins.rst = true →
    ∃ t : State, tick T x s = .next t ∧ t.RegistersZero ∧ t.status = 0 ∧ t.romOut = 0 ∧ t.oldOut = 0)

/-- R55. -/
def Obligations.EveryRegisterIsZeroAtReset : Prop :=
  State.reset.RegistersZero ∧ State.reset.stepCode = .idle ∧ State.reset.status = 0x0000#16

/-! ### Micro-operations -/

/-- How a micro-operation that completes moves on (R32, R258): `UPC + 1`, and at the program's end the completion,
with MATCH and ERR by R232 and R233. -/
def Obligations.AdvanceMovesOnOrCompletes : Prop :=
  (∀ s : State, s.upc.toNat + 1 ≠ (if s.op = .read then 10 else 158) →
    s.advance = { s with upc := s.upc + 1 }) ∧
  (∀ s : State, s.op = .read → s.upc.toNat + 1 = 10 →
    s.advance = { s with valid := true, done := true, busy := false, upc := 0 }) ∧
  (∀ s : State, s.op = .rewrite → s.upc.toNat + 1 = 158 → (∀ k : Fin 8, s.romcode[k] = ~~~s.pat[k]) →
    s.advance = { s with valid := true, matched := true, done := true, busy := false, upc := 0 }) ∧
  (∀ s : State, s.op = .rewrite → s.upc.toNat + 1 = 158 → (∃ k : Fin 8, s.romcode[k] ≠ ~~~s.pat[k]) →
    s.advance = { s with
      valid := true, matched := false, err := .verificationMismatch, done := true, busy := false, upc := 0 })

/-- What an abort writes and what it leaves (R280); it leaves nothing to run but the host's next command (R282). -/
def Obligations.AbortRecordsStepAndCause : Prop :=
  ∀ (s : State) (e : ErrCode),
    ((s.abort e).fstep = s.stepCode ∧ (s.abort e).err = e ∧ (s.abort e).done = true ∧ (s.abort e).busy = false ∧
      (s.abort e).upc = 0 ∧ (s.abort e).oe = false) ∧
    ((s.abort e).valid = s.valid ∧ (s.abort e).matched = s.matched ∧ (s.abort e).oldvalid = s.oldvalid ∧
      (s.abort e).op = s.op ∧ (s.abort e).pat = s.pat ∧ (s.abort e).romcode = s.romcode ∧
      (s.abort e).oldcode = s.oldcode) ∧
    ((s.abort e).trace = s.trace ∧ (s.abort e).wire = s.wire) ∧
    (s.slot = none → ∃ w, (s.abort e).nextWord = some (.host w))

/-- RESET (R121): it goes on with a presence pulse and aborts on the other two answers. -/
def Obligations.ResetFollowsItsAnswer : Prop :=
  (∀ s : State, s.resetAnswer = .presence → exec .reset s = .next (State.advance { s.dropReset with
    pres := true, wire := s.wire ++ [.reset], trace := s.trace ++ [.reset .presence] })) ∧
  (∀ s : State, s.resetAnswer = .noPresence → exec .reset s = .next (State.abort { s.dropReset with
    pres := false, wire := s.wire ++ [.reset], trace := s.trace ++ [.reset .noPresence] } .noDevicePresent)) ∧
  (∀ s : State, s.resetAnswer = .fault → exec .reset s = .next (State.abort { s.dropReset with
    trace := s.trace ++ [.reset .fault] } .transportTimingFault))

/-- WBIT b (R122, R123). -/
def Obligations.WbitSendsOneSlot : Prop :=
  (∀ (s : State) (b : Bool), s.writeAnswer b = .ok → exec (.wbit b) s = .next (State.advance { s.dropWrite with
    wire := s.wire ++ [.w b], trace := s.trace ++ [.wbit b none] })) ∧
  (∀ (s : State) (b : Bool), s.writeAnswer b = .fault → exec (.wbit b) s = .next (State.abort { s.dropWrite with
    trace := s.trace ++ [.wbit b (some 0)] } .transportTimingFault))

/-- WBITP k,i sends `PAT[k][i]` as stored (R129). -/
def Obligations.WbitpSendsThePatternBit : Prop :=
  (∀ (s : State) (k i : Fin 8), s.writeAnswer (s.pat[k].getLsbD i.val) = .ok →
    exec (.wbitp k i) s = .next (State.advance { s.dropWrite with
      wire := s.wire ++ [.w (s.pat[k].getLsbD i.val)],
      trace := s.trace ++ [.wbit (s.pat[k].getLsbD i.val) none] })) ∧
  (∀ (s : State) (k i : Fin 8), s.writeAnswer (s.pat[k].getLsbD i.val) = .fault →
    exec (.wbitp k i) s = .next (State.abort { s.dropWrite with
      trace := s.trace ++ [.wbit (s.pat[k].getLsbD i.val) (some 0)] } .transportTimingFault))

/-- WBYTE v sends eight slots, bit 0 first, for every byte v (R125). -/
def Obligations.WbyteSendsEightBits : Prop :=
  ∀ (s : State) (v : Byte) (l : List WriteAnswer), s.ansWrite = List.replicate 8 .ok ++ l →
    exec (.wbyte v) s = .next (State.advance { s with
      ansWrite := l, biti := 0, trace := s.trace ++ [.wbyte v none],
      wire := s.wire ++ [.w (v.getLsbD 0), .w (v.getLsbD 1), .w (v.getLsbD 2), .w (v.getLsbD 3),
        .w (v.getLsbD 4), .w (v.getLsbD 5), .w (v.getLsbD 6), .w (v.getLsbD 7)] })

/-- A fault in slot `n` of a WBYTE raises at once: the `n` slots before it were sent, none after it (R126). -/
def Obligations.WbyteFaultStopsTheByte : Prop :=
  ∀ (s : State) (v : Byte) (n : Fin 8) (l : List WriteAnswer),
    s.ansWrite = List.replicate n.val .ok ++ .fault :: l →
    ∃ t : State, exec (.wbyte v) s = .next t ∧
      t.wire = s.wire ++ (List.range n.val).map (fun i => .w (v.getLsbD i)) ∧
      t.trace = s.trace ++ [.wbyte v (some (BitVec.ofNat 3 n.val))] ∧ t.ansWrite = l ∧
      t.err = .transportTimingFault ∧ t.fstep = s.stepCode ∧ t.done = true ∧ t.busy = false ∧ t.upc = 0 ∧
      t.oe = false

/-- RBYTE d,k assembles eight samples, bit 0 first, and writes its register once (R127). -/
def Obligations.RbyteAssemblesEightBits : Prop :=
  ∀ (s : State) (k : Fin 8) (bits : List Bool) (l : List ReadAnswer),
    bits.length = 8 → s.ansRead = bits.map ReadAnswer.bit ++ l →
    ∃ v : Byte, (∀ i : Fin 8, bits[i.val]? = some (v.getLsbD i.val)) ∧
      exec (.rbyte .romcode k) s = .next (State.advance { s with
        romcode := s.romcode.set k v, ansRead := l, biti := 0, sr := v,
        wire := s.wire ++ bits.map WireEvent.r, trace := s.trace ++ [.rbyte v] }) ∧
      exec (.rbyte .oldcode k) s = .next (State.advance { s with
        oldcode := s.oldcode.set k v, oldvalid := s.oldvalid || k == 7, ansRead := l, biti := 0, sr := v,
        wire := s.wire ++ bits.map WireEvent.r, trace := s.trace ++ [.rbyte v] })

/-- A fault in slot `n` of an RBYTE drops the partial byte: both register files keep their values (R127). -/
def Obligations.RbyteFaultDropsThePartialByte : Prop :=
  ∀ (s : State) (d : Dest) (k : Fin 8) (bits : List Bool) (l : List ReadAnswer),
    bits.length < 8 → s.ansRead = bits.map ReadAnswer.bit ++ .fault :: l →
    ∃ t : State, exec (.rbyte d k) s = .next t ∧
      t.romcode = s.romcode ∧ t.oldcode = s.oldcode ∧ t.oldvalid = s.oldvalid ∧ t.valid = s.valid ∧
      t.wire = s.wire ++ bits.map WireEvent.r ∧ t.ansRead = l ∧
      t.trace = s.trace ++ [.rbyteFault (BitVec.ofNat 3 bits.length)] ∧
      t.err = .transportTimingFault ∧ t.fstep = s.stepCode ∧ t.done = true ∧ t.busy = false ∧ t.upc = 0

/-- WAIT10 consults nothing and cannot fault (R131). -/
def Obligations.Wait10OnlyMovesOn : Prop :=
  ∀ s : State, exec .wait10 s = .next (State.advance { s with trace := s.trace ++ [.wait10] })

/-- The frame of the six micro-operations: PAT, OP and the host's pins never change; a register file changes only in
the register an RBYTE names; OLDVALID only by RBYTE OLDCODE,7; PRES only by RESET; SR only by RBYTE; BITI is counted by
the two byte operations only; TCNT and OE are left alone or cleared; the histories only grow; and while the command
goes on no flag of the end changes. -/
def Obligations.MicroOperationFrame : Prop :=
  ∀ (i : Instr) (s t : State), (∃ w, decodeUop w = .ok i) → exec i s = .next t →
    (t.pat = s.pat ∧ t.op = s.op ∧ t.pins = s.pins ∧ t.slot = s.slot) ∧
    (∀ k : Fin 8, i ≠ .rbyte .romcode k → t.romcode[k] = s.romcode[k]) ∧
    (∀ k : Fin 8, i ≠ .rbyte .oldcode k → t.oldcode[k] = s.oldcode[k]) ∧
    (i ≠ .rbyte .oldcode 7 → t.oldvalid = s.oldvalid) ∧
    (i ≠ .reset → t.pres = s.pres ∧ t.ansReset = s.ansReset) ∧
    ((∀ d k, i ≠ .rbyte d k) → t.sr = s.sr ∧ t.ansRead = s.ansRead) ∧
    ((∀ v, i ≠ .wbyte v) → (∀ b, i ≠ .wbit b) → (∀ k j, i ≠ .wbitp k j) → t.ansWrite = s.ansWrite) ∧
    ((∀ v, i ≠ .wbyte v) → (∀ d k, i ≠ .rbyte d k) → t.biti = s.biti ∨ t.biti = 0) ∧
    ((t.tcnt = s.tcnt ∧ t.oe = s.oe) ∨ (t.tcnt = 0 ∧ t.oe = false)) ∧
    (s.trace <+: t.trace ∧ s.wire <+: t.wire) ∧
    (t.busy = true → s.busy = true ∧ t.upc = s.upc + 1 ∧ t.done = s.done ∧ t.valid = s.valid ∧
      t.matched = s.matched ∧ t.err = s.err ∧ t.fstep = s.fstep)

/-! ### Bus command frames and pseudo-instructions -/

/-- OW_WRITE_ENABLE and OW_WRITE_DISABLE: 0xD1 bit 0 first, the `arm` bit as a ninth slot, a wait (R102). -/
def Obligations.WriteControlFramesSendNineBits : Prop :=
  ∀ (s : State) (l : List WriteAnswer), s.ansWrite = List.replicate 9 .ok ++ l →
    s.upc.toNat + 3 < progLen s.op →
    exec .owWriteEnable s = .next { s with
      upc := s.upc + 3, ansWrite := l, biti := 0,
      wire := s.wire ++ [true, false, false, false, true, false, true, true, false].map WireEvent.w,
      trace := s.trace ++ [.wbyte 0xD1 none, .wbit false none, .wait10] } ∧
    exec .owWriteDisable s = .next { s with
      upc := s.upc + 3, ansWrite := l, biti := 0,
      wire := s.wire ++ [true, false, false, false, true, false, true, true, true].map WireEvent.w,
      trace := s.trace ++ [.wbyte 0xD1 none, .wbit true none, .wait10] }

/-- OW_WRITE_DATA: 0xD5, then slot `8k+i` carries `PAT[k][i]`, a wait after each of the 64 (R103). -/
def Obligations.WriteDataFrameSendsThePatterns : Prop :=
  ∀ (s : State) (l : List WriteAnswer), s.ansWrite = List.replicate 72 .ok ++ l →
    s.upc.toNat + 129 < progLen s.op →
    exec .owWriteData s = .next { s with
      upc := s.upc + 129, ansWrite := l, biti := 0,
      wire := s.wire ++ ([true, false, true, false, true, false, true, true].map WireEvent.w ++
        indices.flatMap fun k => indices.map fun i => .w (s.pat[k].getLsbD i.val)),
      trace := s.trace ++ (.wbyte 0xD5 none ::
        indices.flatMap fun k => indices.flatMap fun i => [.wbit (s.pat[k].getLsbD i.val) none, .wait10]) }

/-- OW_READ_ROM: 0x33, then 64 read slots (R101). The file they fill is the model's reading (log 8). -/
def Obligations.ReadRomFrameReadsEightBytes : Prop :=
  ∀ (s : State) (bits : List Bool) (lw : List WriteAnswer) (lr : List ReadAnswer), bits.length = 64 →
    s.ansWrite = List.replicate 8 .ok ++ lw → s.ansRead = bits.map ReadAnswer.bit ++ lr →
    s.upc.toNat + 9 ≤ progLen s.op →
    ∃ t : State, exec .owReadRom s = .next t ∧
      (∀ k i : Fin 8, bits[8 * k.val + i.val]? = some ((match s.frameDest with
        | .romcode => t.romcode[k]
        | .oldcode => t.oldcode[k]).getLsbD i.val)) ∧
      (s.frameDest = .romcode → t.oldcode = s.oldcode) ∧ (s.frameDest = .oldcode → t.romcode = s.romcode) ∧
      t.wire = s.wire ++ ([true, true, false, false, true, true, false, false].map WireEvent.w ++
        bits.map WireEvent.r) ∧
      t.pat = s.pat ∧ t.op = s.op ∧ t.ansWrite = lw ∧ t.ansRead = lr ∧ t.ansReset = s.ansReset ∧
      (s.upc.toNat + 9 < progLen s.op → t.upc = s.upc + 9 ∧ t.busy = s.busy ∧ t.done = s.done) ∧
      (s.upc.toNat + 9 = progLen s.op → t.upc = 0 ∧ t.busy = false ∧ t.done = true ∧ t.valid = true)

/-- ROMREAD d: a reset, 0x33, eight bytes into the file d, ten transport calls (R200, R201, R206). That OLDVALID is set
by every ROMREAD OLDCODE, whatever OP is, is the model's reading (log 23). -/
def Obligations.RomreadReadsEightBytes : Prop :=
  ∀ (s : State) (d : Dest) (bits : List Bool) (lp : List ResetAnswer) (lw : List WriteAnswer)
    (lr : List ReadAnswer), bits.length = 64 →
    s.ansReset = .presence :: lp → s.ansWrite = List.replicate 8 .ok ++ lw →
    s.ansRead = bits.map ReadAnswer.bit ++ lr → s.upc.toNat + 10 ≤ progLen s.op →
    ∃ t : State, exec (.romread d) s = .next t ∧
      (∀ k i : Fin 8, bits[8 * k.val + i.val]? = some ((match d with
        | .romcode => t.romcode[k]
        | .oldcode => t.oldcode[k]).getLsbD i.val)) ∧
      (d = .romcode → t.oldcode = s.oldcode ∧ t.oldvalid = s.oldvalid) ∧
      (d = .oldcode → t.romcode = s.romcode ∧ t.oldvalid = true) ∧
      t.wire = s.wire ++ (.reset :: [true, true, false, false, true, true, false, false].map WireEvent.w ++
        bits.map WireEvent.r) ∧
      (∃ tr, t.trace = s.trace ++ tr ∧ tr.map Event.call = readCalls ∧ transportCalls tr = 10) ∧
      t.pat = s.pat ∧ t.op = s.op ∧ t.ansReset = lp ∧ t.ansWrite = lw ∧ t.ansRead = lr ∧
      (s.upc.toNat + 10 < progLen s.op → t.upc = s.upc + 10 ∧ t.busy = s.busy ∧ t.done = s.done) ∧
      (s.upc.toNat + 10 = progLen s.op → t.upc = 0 ∧ t.busy = false ∧ t.done = true ∧ t.valid = true)

/-- A ROMREAD whose reset finds no presence, or faults, ends there with one transport call (R202, R206). -/
def Obligations.RomreadEndsWithoutPresence : Prop :=
  ∀ (s : State) (d : Dest), s.resetAnswer ≠ .presence →
    exec (.romread d) s = exec .reset s ∧
    ∃ t : State, exec (.romread d) s = .next t ∧ t.trace = s.trace ++ [.reset s.resetAnswer] ∧
      t.busy = false ∧ t.done = true ∧ t.err.Aborts ∧ t.romcode = s.romcode ∧ t.oldcode = s.oldcode

/-- CODEC k sends exactly eight bits, the `i`-th being `PAT[k][i]`, each followed by one wait (R191, R194); for
`PAT[k] = val(str)` they spell `reverse(str)` (R192). -/
def Obligations.CodecSpellsTheReversedString : Prop :=
  ∀ (s : State) (k : Fin 8) (l : List WriteAnswer), s.ansWrite = List.replicate 8 .ok ++ l →
    s.upc.toNat + 16 < progLen s.op →
    exec (.codec k) s = .next { s with
      upc := s.upc + 16, ansWrite := l,
      wire := s.wire ++ (indices.map fun i => .w (s.pat[k].getLsbD i.val)),
      trace := s.trace ++ indices.flatMap fun i => [.wbit (s.pat[k].getLsbD i.val) none, .wait10] } ∧
    ∀ str : Vector Bool 8, s.pat[k] = strVal str →
      (indices.map fun i => s.pat[k].getLsbD i.val) = str.toList.reverse

/-- A fault in slot `n` of a CODEC ends the command: bits `n`..7 are not sent (R191). -/
def Obligations.CodecFaultEndsTheCommand : Prop :=
  ∀ (s : State) (k n : Fin 8) (l : List WriteAnswer),
    s.ansWrite = List.replicate n.val .ok ++ .fault :: l → s.upc.toNat + 16 < progLen s.op →
    ∃ t : State, exec (.codec k) s = .next t ∧
      t.wire = s.wire ++ (List.range n.val).map (fun i => .w (s.pat[k].getLsbD i)) ∧
      t.err = .transportTimingFault ∧ t.done = true ∧ t.busy = false ∧ t.upc = 0 ∧ t.pat = s.pat ∧
      t.romcode = s.romcode ∧ t.oldcode = s.oldcode ∧ t.oldvalid = s.oldvalid ∧ t.ansWrite = l

/-- The frame of the bus command frames and the pseudo-instructions: PAT, OP and the pins never change, and a
register file only by a read into it. Which file a bare OW_READ_ROM leaves alone is the model's reading (log 8). -/
def Obligations.FrameAndPseudoFrame : Prop :=
  ∀ (i : Instr) (s t : State),
    i ∈ [.owReadRom, .owWriteEnable, .owWriteDisable, .owWriteData] ∨ (∃ d, i = .romread d) ∨ (∃ k, i = .codec k) →
    exec i s = .next t →
    (t.pat = s.pat ∧ t.op = s.op ∧ t.pins = s.pins ∧ t.slot = s.slot) ∧
    (i ≠ .romread .romcode → (i = .owReadRom → s.frameDest = .oldcode) → t.romcode = s.romcode) ∧
    (i ≠ .romread .oldcode → (i = .owReadRom → s.frameDest = .romcode) →
      t.oldcode = s.oldcode ∧ t.oldvalid = s.oldvalid) ∧
    ((∀ d, i ≠ .romread d) → t.pres = s.pres ∧ t.ansReset = s.ansReset) ∧
    ((∀ d, i ≠ .romread d) → i ≠ .owReadRom → t.sr = s.sr ∧ t.ansRead = s.ansRead) ∧
    ((t.tcnt = s.tcnt ∧ t.oe = s.oe) ∨ (t.tcnt = 0 ∧ t.oe = false)) ∧
    (s.trace <+: t.trace ∧ s.wire <+: t.wire) ∧
    (t.busy = true → s.busy = true ∧ t.done = s.done ∧ t.valid = s.valid ∧ t.matched = s.matched ∧
      t.err = s.err ∧ t.fstep = s.fstep)

/-- The two micro-programs (R203, R217), and what they are made of. -/
def Obligations.ProgramsAreTheListings : Prop :=
  (progWords .read).length = 10 ∧ (progWords .rewrite).length = 158 ∧
  progInstrs .read = Instr.reset :: Instr.wbyte 0x33 :: indices.map (Instr.rbyte .romcode) ∧
  progInstrs .rewrite = (Instr.reset :: Instr.wbyte 0x33 :: indices.map (Instr.rbyte .oldcode)) ++
    ([Instr.reset, Instr.wbyte 0xD1, Instr.wbit false, Instr.wait10, Instr.reset, Instr.wbyte 0xD5] ++
    ((indices.flatMap fun k => indices.flatMap fun i => [Instr.wbitp k i, Instr.wait10]) ++
    ([Instr.reset, Instr.wbyte 0xD1, Instr.wbit true, Instr.wait10] ++
    (Instr.reset :: Instr.wbyte 0x33 :: indices.map (Instr.rbyte .romcode)))))

/-! ### Flags, STATUS, ports -/

/-- STEP (R33). -/
def Obligations.StepFollowsItsTable : Prop :=
  ∀ s : State,
    (s.busy = false → s.stepCode = .idle) ∧
    (s.busy = true → s.op = .read → s.upc.toNat ≤ 9 → s.stepCode = .readRom) ∧
    (s.busy = true → s.op = .rewrite →
      (s.upc.toNat ≤ 9 → s.stepCode = .readOld) ∧
      (10 ≤ s.upc.toNat → s.upc.toNat ≤ 11 → s.stepCode = .enterWriteMode) ∧
      (12 ≤ s.upc.toNat → s.upc.toNat ≤ 13 → s.stepCode = .armWrite) ∧
      (s.upc.toNat = 14 → s.stepCode = .resync) ∧
      (s.upc.toNat = 15 → s.stepCode = .sendWriteCommand) ∧
      (16 ≤ s.upc.toNat → s.upc.toNat ≤ 143 → s.stepCode = .transmitIdentifier) ∧
      (s.upc.toNat = 144 → s.stepCode = .exitWriteSetup) ∧
      (s.upc.toNat = 145 → s.stepCode = .disableWrite) ∧
      (146 ≤ s.upc.toNat → s.upc.toNat ≤ 147 → s.stepCode = .disarmWrite) ∧
      (148 ≤ s.upc.toNat → s.upc.toNat ≤ 157 → s.stepCode = .verifyNew)) ∧
    stepBits .idle = 0 ∧ stepBits .readOld = 1 ∧ stepBits .enterWriteMode = 2 ∧ stepBits .armWrite = 3 ∧
    stepBits .resync = 4 ∧ stepBits .sendWriteCommand = 5 ∧ stepBits .transmitIdentifier = 6 ∧
    stepBits .exitWriteSetup = 7 ∧ stepBits .disableWrite = 8 ∧ stepBits .disarmWrite = 9 ∧
    stepBits .verifyNew = 10 ∧ stepBits .readRom = 11

/-- The layout of STATUS (R40) with the codes of R38. -/
def Obligations.StatusLayout : Prop :=
  (∀ s : State,
    s.status.getLsbD 0 = s.busy ∧ s.status.getLsbD 1 = s.done ∧ s.status.getLsbD 2 = s.valid ∧
    s.status.getLsbD 3 = s.oldvalid ∧ s.status.getLsbD 4 = s.matched ∧
    s.status.extractLsb' 5 2 = errBits s.err ∧ s.status.getLsbD 7 = (s.op == .rewrite) ∧
    s.status.extractLsb' 8 4 = stepBits s.stepCode ∧ s.status.extractLsb' 12 4 = stepBits s.fstep) ∧
  errBits .none = 0 ∧ errBits .noDevicePresent = 1 ∧ errBits .transportTimingFault = 2 ∧
  errBits .verificationMismatch = 3

/-- The register numbers (R41) and the two 64-bit ports (R24, R45). -/
def Obligations.RegisterNumbersAndPorts : Prop :=
  ∀ s : State,
    s.regView 0 = .status s.status ∧
    (∀ k : Fin 8, s.regView (1 + k.val) = .byte s.romcode[k] ∧ s.regView (9 + k.val) = .byte s.oldcode[k] ∧
      s.regView (17 + k.val) = .notReadable) ∧
    (∀ n : Nat, 25 ≤ n → s.regView n = .noSuchRegister) ∧
    (∀ k : Fin 8, s.romOut.extractLsb' (8 * k.val) 8 = s.romcode[k] ∧
      s.oldOut.extractLsb' (8 * k.val) 8 = s.oldcode[k])

/-- PatternOf and IdOf are the complement and undo each other (R104). -/
def Obligations.PatternTransformIsComplement : Prop :=
  ∀ x : Byte, patternOf x = ~~~x ∧ idOf x = ~~~x ∧ idOf (patternOf x) = x ∧ patternOf (idOf x) = x

/-- The last micro-operation of a REWRITE decides MATCH and ERR from the read-back just completed (R232, R233). `t` is
`s` with what is listed changed and nothing else. -/
def Obligations.LastByteDecidesMatch : Prop :=
  ∀ (s : State) (bits : List Bool) (l : List ReadAnswer), s.op = .rewrite → s.upc = 157 → bits.length = 8 →
    s.ansRead = bits.map ReadAnswer.bit ++ l →
    ∃ (v : Byte) (t : State), exec (.rbyte .romcode 7) s = .next t ∧
      (∀ i : Fin 8, bits[i.val]? = some (v.getLsbD i.val)) ∧
      (t.matched = true ↔ ∀ k : Fin 8, t.romcode[k] = ~~~t.pat[k]) ∧
      (t.matched = true → t.err = s.err) ∧ (t.matched = false → t.err = .verificationMismatch) ∧
      t = { s with
        romcode := s.romcode.set 7 v, ansRead := l, biti := 0, sr := v,
        wire := s.wire ++ bits.map WireEvent.r, trace := s.trace ++ [.rbyte v],
        matched := t.matched, err := t.err, valid := true, done := true, busy := false, upc := 0 }

/-! ### The whole machine, level T -/

/-- The state after reset is legal. -/
def Obligations.ResetStateIsLegal : Prop := State.reset.Inv

/-- Every step keeps the invariant: UPC legal, the flags as R37 to R39 and R274 relate them, no line operation left
in progress. -/
def Obligations.StepKeepsTheInvariant : Prop :=
  ∀ s t : State, s.Inv → step s = .next t → t.Inv

/-- A legal machine never stops: every step has a next state (R336: there is no hang state). -/
def Obligations.LegalStepNeverStops : Prop :=
  ∀ s : State, s.Inv → ∃ t : State, step s = .next t

/-- Every accepted command ends, whatever the environment answers and whatever the host does (R336). -/
def Obligations.EveryCommandEnds : Prop :=
  ∀ s : State, s.Inv → s.busy = true →
    ∃ n : Nat, n + s.upc.toNat ≤ progLen s.op ∧ ∃ t : State, runSteps n s = .next t ∧ t.busy = false

/-- R75: the trace of a command is a prefix of the trace its micro-program defines, cut only at the first fault: an idle
core has completed the command or a call of it failed. The trace is whole, without a fault, exactly when VALID is set. -/
def Obligations.TraceIsPrefixOfItsProgram : Prop :=
  ∀ (s : State) (p : Pins) (o : Op) (n : Nat), s.CommandGiven p o →
    ∃ t : State, runSteps (n + 1) s = .next t ∧ ∃ tr : List Event, t.trace = s.trace ++ tr ∧
      tr.map Event.call <+: commandCalls (unpackPort p.patIn) o ∧
      (∀ e ∈ tr.dropLast, e.failed = false) ∧
      (t.valid = true ↔
        tr.map Event.call = commandCalls (unpackPort p.patIn) o ∧ ∀ e ∈ tr, e.failed = false) ∧
      (t.err.Aborts ↔ ∃ e ∈ tr, e.failed = true) ∧
      (t.busy = false → t.valid = true ∨ ∃ e ∈ tr, e.failed = true)

/-- R204: the result of a complete READ. -/
def Obligations.CompleteReadResult : Prop :=
  ∀ (s : State) (p : Pins) (bits : List Bool) (lp : List ResetAnswer) (lw : List WriteAnswer)
    (lr : List ReadAnswer), s.CommandGiven p .read → bits.length = 64 → s.ansReset = .presence :: lp →
    s.ansWrite = List.replicate 8 .ok ++ lw → s.ansRead = bits.map ReadAnswer.bit ++ lr →
    ∃ t : State, runSteps 11 s = .next t ∧
      (∀ k i : Fin 8, bits[8 * k.val + i.val]? = some (t.romcode[k].getLsbD i.val)) ∧
      t.valid = true ∧ t.done = true ∧ t.busy = false ∧ t.err = .none ∧ t.matched = false ∧
      t.oldvalid = false ∧ t.fstep = .idle ∧ t.status = 0x0006#16 ∧ t.oldcode = s.oldcode ∧ t.pat = s.pat

/-- R234, R236: the result and the trace of a complete REWRITE, for every pattern and every identifier read. -/
def Obligations.CompleteRewriteResult : Prop :=
  ∀ (s : State) (p : Pins) (old new : List Bool) (lp : List ResetAnswer) (lw : List WriteAnswer)
    (lr : List ReadAnswer), s.CommandGiven p .rewrite → old.length = 64 → new.length = 64 →
    s.ansReset = List.replicate 5 .presence ++ lp → s.ansWrite = List.replicate 106 .ok ++ lw →
    s.ansRead = (old ++ new).map ReadAnswer.bit ++ lr →
    ∃ t : State, runSteps 159 s = .next t ∧
      (∀ k i : Fin 8, old[8 * k.val + i.val]? = some (t.oldcode[k].getLsbD i.val)) ∧
      (∀ k i : Fin 8, new[8 * k.val + i.val]? = some (t.romcode[k].getLsbD i.val)) ∧
      (∀ k : Fin 8, t.pat[k] = p.patIn.extractLsb' (8 * k.val) 8) ∧
      (t.matched = true ↔ ∀ k : Fin 8, t.romcode[k] = ~~~t.pat[k]) ∧
      t.err = (if t.matched then .none else .verificationMismatch) ∧
      t.status = (if t.matched then 0x009E#16 else 0x00EE#16) ∧
      t.oldvalid = true ∧ t.valid = true ∧ t.done = true ∧ t.busy = false ∧ t.fstep = .idle ∧ t.op = .rewrite ∧
      t.upc = 0 ∧ t.stepCode = .idle ∧
      (∃ tr, t.trace = s.trace ++ tr ∧ tr.map Event.call = rewriteCalls t.pat ∧ tr.length = 158 ∧
        transportCalls tr = 92)

/-- R259: a command's trace and result depend on the command, its patterns and the environment's answers only. Two
idle cores whose registers and histories differ in any way go through the same command alike; a code register ends the
same in both, or as it was in both. -/
def Obligations.CommandIgnoresEarlierRegisters : Prop :=
  ∀ (s u : State) (p : Pins) (o : Op) (n : Nat), s.CommandGiven p o → u.CommandGiven p o →
    s.ansReset = u.ansReset → s.ansWrite = u.ansWrite → s.ansRead = u.ansRead → s.asks = u.asks →
    ∃ t v : State, runSteps (n + 1) s = .next t ∧ runSteps (n + 1) u = .next v ∧
      t.status = v.status ∧ t.upc = v.upc ∧
      (t.valid = true → t.romcode = v.romcode) ∧ (t.oldvalid = true → t.oldcode = v.oldcode) ∧
      (∀ k : Fin 8, t.romcode[k] = v.romcode[k] ∨ (t.romcode[k] = s.romcode[k] ∧ v.romcode[k] = u.romcode[k])) ∧
      (∀ k : Fin 8, t.oldcode[k] = v.oldcode[k] ∨ (t.oldcode[k] = s.oldcode[k] ∧ v.oldcode[k] = u.oldcode[k])) ∧
      (o = .rewrite → t.pat = v.pat) ∧ (o = .read → t.pat = s.pat ∧ v.pat = u.pat) ∧
      ∃ (tr : List Event) (wr : List WireEvent),
        t.trace = s.trace ++ tr ∧ v.trace = u.trace ++ tr ∧ t.wire = s.wire ++ wr ∧ v.wire = u.wire ++ wr

/-- R238 with the reference slave of 95_test_vectors.md (D24): whatever identifier it held and whatever the patterns,
REWRITE on a writable slave ends with the identifier implied by the patterns, read back and matching. -/
def Obligations.RewriteOnReferenceSlaveMatches : Prop :=
  ∀ (s : State) (d : Slave) (p : BitVec 64), s.busy = false → d.present = true → d.writable = true →
    ∃ a : State, exec (.rewrite p) s = .next a ∧
      (let r := closedRun 158 d a
       (∀ k : Fin 8, r.2.romcode[k] = ~~~(p.extractLsb' (8 * k.val) 8)) ∧ r.2.oldcode = d.rom ∧
       r.1.rom = r.2.romcode ∧ r.1.armed = false ∧ r.2.matched = true ∧ r.2.status = 0x009E#16)

/-- R239, R271: no presence at a RESET of a running command ends it there, with the step recorded and no further event.
The pins are quiet (log 3), and a completed reset without presence is on the wire (log 17): the model's own choices. -/
def Obligations.NoPresenceEndsTheCommand : Prop :=
  ∀ (s : State) (f : StepCode), s.Inv → s.busy = true → s.pins = [] → s.resetAnswer = .noPresence →
    (s.op, s.upc, f) ∈ [(.read, 0, .readRom), (.rewrite, 0, .readOld), (.rewrite, 10, .enterWriteMode),
      (.rewrite, 14, .resync), (.rewrite, 144, .exitWriteSetup), (.rewrite, 148, .verifyNew)] →
    ∀ n : Nat, ∃ t : State, runSteps (n + 1) s = .next t ∧ t.err = .noDevicePresent ∧ t.fstep = f ∧
      t.oldvalid = s.oldvalid ∧ (s.upc = 0 → t.oldvalid = false) ∧ t.valid = false ∧ t.matched = false ∧
      t.busy = false ∧ t.done = true ∧ t.trace = s.trace ++ [.reset .noPresence] ∧
      t.wire = s.wire ++ [.reset]

/-! ### Level L -/

/-- R176, the refinement: for every line, every value of the parameters and every host, the ticks of one
micro-operation end in exactly the state in which level T ends it on the answers the line projects to. -/
def Obligations.LevelLRefinesLevelT : Prop :=
  ∀ (T : Timing) (xs : Nat → TickIn) (t0 : Nat) (s : State) (i : Instr), T.Wf →
    (∀ n, (xs n).pins.rst = false) → s.AtBoundary → s.busy = true → s.programInstr = some i →
    ∃ t : State, runTicks T xs t0 (project T (fun n => (xs n).owIn) t0 s.pat i).ticks s = .next t ∧
      exec i (s.withAnswers (project T (fun n => (xs n).owIn) t0 s.pat i)) = .next t

/-- The state after reset is legal at level L. -/
def Obligations.ResetStateIsLegalAtLevelL : Prop := ∀ T : Timing, State.reset.TickInv T

/-- Every tick keeps the invariant of level L: legal flags, TCNT below the operation's length (so it never exceeds
14 bits), BITI counting only inside a byte, and the line released whenever the core is idle. -/
def Obligations.TickKeepsTheInvariant : Prop :=
  ∀ (T : Timing) (x : TickIn) (s t : State), T.Wf → s.TickInv T → tick T x s = .next t → t.TickInv T

/-- A legal block never stops in a tick. -/
def Obligations.LegalTickNeverStops : Prop :=
  ∀ (T : Timing) (x : TickIn) (s : State), s.TickInv T → ∃ t : State, tick T x s = .next t

/-- R158: the idle check, in the first tick of a RESET, a write slot and a read slot. A WAIT10 has none: it never
looks at the line (R172). -/
def Obligations.IdleCheckInTheFirstTick : Prop :=
  (∀ (T : Timing) (x : TickIn) (s : State) (i : Instr) (o : LineOp), T.Wf → x.pins.rst = false → s.busy = true →
    s.programInstr = some i → lineOp i s = some o → o ≠ .wait → s.tcnt = 0 →
    ∃ t : State, tick T x s = .next t ∧
      (x.owIn = false → t.oe = false ∧ t.err = .transportTimingFault ∧ t.fstep = s.stepCode ∧ t.done = true ∧
        t.busy = false ∧ t.upc = 0 ∧ t.romcode = s.romcode ∧ t.oldcode = s.oldcode ∧ t.wire = s.wire) ∧
      (x.owIn = true → t.oe = true ∧ t.err = s.err ∧ t.busy = true ∧ t.upc = s.upc ∧ t.tcnt = 1)) ∧
  (∀ (T : Timing) (p : Pins) (s : State), p.rst = false → s.busy = true → s.programInstr = some .wait10 →
    ∃ t : State, tick T ⟨p, false⟩ s = .next t ∧ tick T ⟨p, true⟩ s = .next t ∧ t.oe = false ∧ t.err = s.err)

/-- R159: the drive check, in the first released tick; a line that is low then passes it. -/
def Obligations.DriveCheckInTheFirstReleasedTick : Prop :=
  ∀ (T : Timing) (x : TickIn) (s : State) (i : Instr) (o : LineOp), T.Wf → x.pins.rst = false → s.busy = true →
    s.programInstr = some i → lineOp i s = some o → o ≠ .wait → s.tcnt.toNat = o.low T →
    ∃ t : State, tick T x s = .next t ∧ t.oe = false ∧
      (x.owIn = true → t.err = .transportTimingFault ∧ t.fstep = s.stepCode ∧ t.done = true ∧ t.busy = false ∧
        t.upc = 0 ∧ t.romcode = s.romcode ∧ t.oldcode = s.oldcode ∧ t.wire = s.wire) ∧
      (x.owIn = false → t.err = s.err ∧ t.fstep = s.fstep ∧ t.done = s.done ∧ t.busy = true ∧
        (s.tcnt.toNat + 1 < o.len T → t.upc = s.upc ∧ t.biti = s.biti ∧ t.tcnt = s.tcnt + 1))

/-- R154: in every tick, with `rst` or without, `ow_oe` is 1 exactly while TCNT is below the operation's low time, but for
a first tick whose idle check fails. `OE` is that level after the tick, but for a `rst` tick, which leaves it 0 (R310; log
29, the model's choice) and releases the line from the next tick (R312). -/
def Obligations.DriveFollowsTheTimeline : Prop :=
  (∀ (T : Timing) (x : TickIn) (s : State) (i : Instr) (o : LineOp), s.busy = true →
    s.programInstr = some i → lineOp i s = some o →
    (s.owOe T x = true ↔ s.tcnt.toNat < o.low T ∧ (s.tcnt = 0 → x.owIn = true))) ∧
  (∀ (T : Timing) (x : TickIn) (s : State), s.busy = false → s.owOe T x = false) ∧
  (∀ (T : Timing) (x : TickIn) (s : State), T.Wf → s.TickInv T → x.pins.rst = false →
    ∃ t : State, tick T x s = .next t ∧ t.oe = s.owOe T x) ∧
  (∀ (T : Timing) (x y : TickIn) (s : State), x.pins.rst = true →
    ∃ t : State, tick T x s = .next t ∧ t.oe = false ∧ t.owOe T y = false)

/-- R151, R174, R312: after a tick that leaves the core idle (completion, abort, `rst`, no command) the line is
released, and while it stays idle it stays released. -/
def Obligations.IdleCoreReleasesTheLine : Prop :=
  (∀ (T : Timing) (x : TickIn) (s t : State), T.Wf → s.TickInv T → tick T x s = .next t → t.busy = false →
    t.oe = false) ∧
  (∀ (T : Timing) (x : TickIn) (s : State), s.busy = false → ∃ t : State, tick T x s = .next t ∧ t.oe = false)

/-- R336 at level L: every command ends within the length of its complete run, for every line and host, by completion or
abort unless a `rst` comes; with the default parameters, which are general knowledge (log 14), that is 6000 ticks for
READ and 681180 for REWRITE. -/
def Obligations.EveryCommandEndsInItsTicks : Prop :=
  (∀ (T : Timing) (xs : Nat → TickIn) (t0 : Nat) (s : State), T.Wf → s.TickInv T → s.busy = true →
    ∃ n : Nat, n ≤ commandTicks T s.pat s.op ∧ ∃ t : State, runTicks T xs t0 n s = .next t ∧ t.busy = false ∧
      ((∀ m, (xs m).pins.rst = false) → t.valid = true ∨ t.err.Aborts)) ∧
  (∀ pat : Bytes8, commandTicks Timing.defaults pat .read = 6000 ∧
    commandTicks Timing.defaults pat .rewrite = 681180)

/-- R181, R182: without a `rst`, BUSY is 1 from the command's first tick to its end, and a command that completes takes
exactly the length of its complete run. -/
def Obligations.CompleteCommandTakesItsTicks : Prop :=
  ∀ (T : Timing) (xs : Nat → TickIn) (t0 : Nat) (s : State), T.Wf → s.Legal → s.AtBoundary → s.busy = true → s.upc = 0 →
    (∀ m, (xs m).pins.rst = false) →
    ∃ n : Nat, n ≤ commandTicks T s.pat s.op ∧ (∀ m < n, ∃ u : State, runTicks T xs t0 m s = .next u ∧ u.busy = true) ∧
      ∃ t : State, runTicks T xs t0 n s = .next t ∧ t.busy = false ∧ (t.valid = true ∨ t.err.Aborts) ∧
        (t.valid = true → n = commandTicks T s.pat s.op)

/-- R180 to R182: the length of each micro-operation that completes, and of the complete commands, as formulas of the
parameters; a REWRITE's counts the 1 bits among its 64 pattern bits. -/
def Obligations.CommandLengths : Prop :=
  (∀ (T : Timing) (pat : Bytes8) (v : Byte) (d : Dest) (k i : Fin 8),
    instrTicks T pat .reset = T.tH + T.tI + T.tJ ∧
    instrTicks T pat (.wbit true) = T.tA + T.tB ∧ instrTicks T pat (.wbit false) = T.tC + T.tD ∧
    instrTicks T pat (.wbitp k i) = (if pat[k].getLsbD i.val then T.tA + T.tB else T.tC + T.tD) ∧
    instrTicks T pat (.wbyte v) =
      (byteBits v).count true * (T.tA + T.tB) + (8 - (byteBits v).count true) * (T.tC + T.tD) ∧
    instrTicks T pat (.rbyte d k) = 8 * (T.tA + T.tE + T.tF) ∧ instrTicks T pat .wait10 = T.tSettle) ∧
  (∀ (T : Timing) (pat : Bytes8), commandTicks T pat .read =
    (T.tH + T.tI + T.tJ) + (4 * (T.tA + T.tB) + 4 * (T.tC + T.tD)) + 64 * (T.tA + T.tE + T.tF)) ∧
  (∀ (T : Timing) (pat : Bytes8), let ones := (indices.flatMap fun k => byteBits pat[k]).count true
    commandTicks T pat .rewrite =
      5 * (T.tH + T.tI + T.tJ) + (22 + ones) * (T.tA + T.tB) + (20 + (64 - ones)) * (T.tC + T.tD) +
        128 * (T.tA + T.tE + T.tF) + 66 * T.tSettle)
end

