-- ==== Sys2Proof/Laws/State.lean ====
section
/-! SUPPORT. One lemma per field per update of the state, so that no proof unfolds a record update. -/

namespace Sys2Proof.Machine

/-! ### `logCall` -/

@[simp] theorem State.logCall_pat (s : State) (e : Event) : (s.logCall e).pat = s.pat := rfl
@[simp] theorem State.logCall_romcode (s : State) (e : Event) : (s.logCall e).romcode = s.romcode := rfl
@[simp] theorem State.logCall_oldcode (s : State) (e : Event) : (s.logCall e).oldcode = s.oldcode := rfl
@[simp] theorem State.logCall_upc (s : State) (e : Event) : (s.logCall e).upc = s.upc := rfl
@[simp] theorem State.logCall_op (s : State) (e : Event) : (s.logCall e).op = s.op := rfl
@[simp] theorem State.logCall_busy (s : State) (e : Event) : (s.logCall e).busy = s.busy := rfl
@[simp] theorem State.logCall_done (s : State) (e : Event) : (s.logCall e).done = s.done := rfl
@[simp] theorem State.logCall_valid (s : State) (e : Event) : (s.logCall e).valid = s.valid := rfl
@[simp] theorem State.logCall_oldvalid (s : State) (e : Event) : (s.logCall e).oldvalid = s.oldvalid := rfl
@[simp] theorem State.logCall_matched (s : State) (e : Event) : (s.logCall e).matched = s.matched := rfl
@[simp] theorem State.logCall_err (s : State) (e : Event) : (s.logCall e).err = s.err := rfl
@[simp] theorem State.logCall_fstep (s : State) (e : Event) : (s.logCall e).fstep = s.fstep := rfl
@[simp] theorem State.logCall_tcnt (s : State) (e : Event) : (s.logCall e).tcnt = s.tcnt := rfl
@[simp] theorem State.logCall_biti (s : State) (e : Event) : (s.logCall e).biti = s.biti := rfl
@[simp] theorem State.logCall_sr (s : State) (e : Event) : (s.logCall e).sr = s.sr := rfl
@[simp] theorem State.logCall_pres (s : State) (e : Event) : (s.logCall e).pres = s.pres := rfl
@[simp] theorem State.logCall_oe (s : State) (e : Event) : (s.logCall e).oe = s.oe := rfl
@[simp] theorem State.logCall_pins (s : State) (e : Event) : (s.logCall e).pins = s.pins := rfl
@[simp] theorem State.logCall_ansReset (s : State) (e : Event) : (s.logCall e).ansReset = s.ansReset := rfl
@[simp] theorem State.logCall_ansWrite (s : State) (e : Event) : (s.logCall e).ansWrite = s.ansWrite := rfl
@[simp] theorem State.logCall_ansRead (s : State) (e : Event) : (s.logCall e).ansRead = s.ansRead := rfl
@[simp] theorem State.logCall_asks (s : State) (e : Event) : (s.logCall e).asks = s.asks := rfl
@[simp] theorem State.logCall_slot (s : State) (e : Event) : (s.logCall e).slot = s.slot := rfl
@[simp] theorem State.logCall_trace (s : State) (e : Event) : (s.logCall e).trace = s.trace ++ [e] := rfl
@[simp] theorem State.logCall_wire (s : State) (e : Event) : (s.logCall e).wire = s.wire := rfl

/-! ### `logWire` -/

@[simp] theorem State.logWire_pat (s : State) (e : WireEvent) : (s.logWire e).pat = s.pat := rfl
@[simp] theorem State.logWire_romcode (s : State) (e : WireEvent) : (s.logWire e).romcode = s.romcode := rfl
@[simp] theorem State.logWire_oldcode (s : State) (e : WireEvent) : (s.logWire e).oldcode = s.oldcode := rfl
@[simp] theorem State.logWire_upc (s : State) (e : WireEvent) : (s.logWire e).upc = s.upc := rfl
@[simp] theorem State.logWire_op (s : State) (e : WireEvent) : (s.logWire e).op = s.op := rfl
@[simp] theorem State.logWire_busy (s : State) (e : WireEvent) : (s.logWire e).busy = s.busy := rfl
@[simp] theorem State.logWire_done (s : State) (e : WireEvent) : (s.logWire e).done = s.done := rfl
@[simp] theorem State.logWire_valid (s : State) (e : WireEvent) : (s.logWire e).valid = s.valid := rfl
@[simp] theorem State.logWire_oldvalid (s : State) (e : WireEvent) : (s.logWire e).oldvalid = s.oldvalid := rfl
@[simp] theorem State.logWire_matched (s : State) (e : WireEvent) : (s.logWire e).matched = s.matched := rfl
@[simp] theorem State.logWire_err (s : State) (e : WireEvent) : (s.logWire e).err = s.err := rfl
@[simp] theorem State.logWire_fstep (s : State) (e : WireEvent) : (s.logWire e).fstep = s.fstep := rfl
@[simp] theorem State.logWire_tcnt (s : State) (e : WireEvent) : (s.logWire e).tcnt = s.tcnt := rfl
@[simp] theorem State.logWire_biti (s : State) (e : WireEvent) : (s.logWire e).biti = s.biti := rfl
@[simp] theorem State.logWire_sr (s : State) (e : WireEvent) : (s.logWire e).sr = s.sr := rfl
@[simp] theorem State.logWire_pres (s : State) (e : WireEvent) : (s.logWire e).pres = s.pres := rfl
@[simp] theorem State.logWire_oe (s : State) (e : WireEvent) : (s.logWire e).oe = s.oe := rfl
@[simp] theorem State.logWire_pins (s : State) (e : WireEvent) : (s.logWire e).pins = s.pins := rfl
@[simp] theorem State.logWire_ansReset (s : State) (e : WireEvent) : (s.logWire e).ansReset = s.ansReset := rfl
@[simp] theorem State.logWire_ansWrite (s : State) (e : WireEvent) : (s.logWire e).ansWrite = s.ansWrite := rfl
@[simp] theorem State.logWire_ansRead (s : State) (e : WireEvent) : (s.logWire e).ansRead = s.ansRead := rfl
@[simp] theorem State.logWire_asks (s : State) (e : WireEvent) : (s.logWire e).asks = s.asks := rfl
@[simp] theorem State.logWire_slot (s : State) (e : WireEvent) : (s.logWire e).slot = s.slot := rfl
@[simp] theorem State.logWire_trace (s : State) (e : WireEvent) : (s.logWire e).trace = s.trace := rfl
@[simp] theorem State.logWire_wire (s : State) (e : WireEvent) : (s.logWire e).wire = s.wire ++ [e] := rfl

/-! ### `dropReset` -/

@[simp] theorem State.dropReset_pat (s : State) : s.dropReset.pat = s.pat := rfl
@[simp] theorem State.dropReset_romcode (s : State) : s.dropReset.romcode = s.romcode := rfl
@[simp] theorem State.dropReset_oldcode (s : State) : s.dropReset.oldcode = s.oldcode := rfl
@[simp] theorem State.dropReset_upc (s : State) : s.dropReset.upc = s.upc := rfl
@[simp] theorem State.dropReset_op (s : State) : s.dropReset.op = s.op := rfl
@[simp] theorem State.dropReset_busy (s : State) : s.dropReset.busy = s.busy := rfl
@[simp] theorem State.dropReset_done (s : State) : s.dropReset.done = s.done := rfl
@[simp] theorem State.dropReset_valid (s : State) : s.dropReset.valid = s.valid := rfl
@[simp] theorem State.dropReset_oldvalid (s : State) : s.dropReset.oldvalid = s.oldvalid := rfl
@[simp] theorem State.dropReset_matched (s : State) : s.dropReset.matched = s.matched := rfl
@[simp] theorem State.dropReset_err (s : State) : s.dropReset.err = s.err := rfl
@[simp] theorem State.dropReset_fstep (s : State) : s.dropReset.fstep = s.fstep := rfl
@[simp] theorem State.dropReset_tcnt (s : State) : s.dropReset.tcnt = s.tcnt := rfl
@[simp] theorem State.dropReset_biti (s : State) : s.dropReset.biti = s.biti := rfl
@[simp] theorem State.dropReset_sr (s : State) : s.dropReset.sr = s.sr := rfl
@[simp] theorem State.dropReset_pres (s : State) : s.dropReset.pres = s.pres := rfl
@[simp] theorem State.dropReset_oe (s : State) : s.dropReset.oe = s.oe := rfl
@[simp] theorem State.dropReset_pins (s : State) : s.dropReset.pins = s.pins := rfl
@[simp] theorem State.dropReset_ansReset (s : State) : s.dropReset.ansReset = s.ansReset.tail := rfl
@[simp] theorem State.dropReset_ansWrite (s : State) : s.dropReset.ansWrite = s.ansWrite := rfl
@[simp] theorem State.dropReset_ansRead (s : State) : s.dropReset.ansRead = s.ansRead := rfl
@[simp] theorem State.dropReset_asks (s : State) : s.dropReset.asks = if s.ansReset.isEmpty then s.asks + 1 else s.asks := rfl
@[simp] theorem State.dropReset_slot (s : State) : s.dropReset.slot = s.slot := rfl
@[simp] theorem State.dropReset_trace (s : State) : s.dropReset.trace = s.trace := rfl
@[simp] theorem State.dropReset_wire (s : State) : s.dropReset.wire = s.wire := rfl

/-! ### `dropWrite` -/

@[simp] theorem State.dropWrite_pat (s : State) : s.dropWrite.pat = s.pat := rfl
@[simp] theorem State.dropWrite_romcode (s : State) : s.dropWrite.romcode = s.romcode := rfl
@[simp] theorem State.dropWrite_oldcode (s : State) : s.dropWrite.oldcode = s.oldcode := rfl
@[simp] theorem State.dropWrite_upc (s : State) : s.dropWrite.upc = s.upc := rfl
@[simp] theorem State.dropWrite_op (s : State) : s.dropWrite.op = s.op := rfl
@[simp] theorem State.dropWrite_busy (s : State) : s.dropWrite.busy = s.busy := rfl
@[simp] theorem State.dropWrite_done (s : State) : s.dropWrite.done = s.done := rfl
@[simp] theorem State.dropWrite_valid (s : State) : s.dropWrite.valid = s.valid := rfl
@[simp] theorem State.dropWrite_oldvalid (s : State) : s.dropWrite.oldvalid = s.oldvalid := rfl
@[simp] theorem State.dropWrite_matched (s : State) : s.dropWrite.matched = s.matched := rfl
@[simp] theorem State.dropWrite_err (s : State) : s.dropWrite.err = s.err := rfl
@[simp] theorem State.dropWrite_fstep (s : State) : s.dropWrite.fstep = s.fstep := rfl
@[simp] theorem State.dropWrite_tcnt (s : State) : s.dropWrite.tcnt = s.tcnt := rfl
@[simp] theorem State.dropWrite_biti (s : State) : s.dropWrite.biti = s.biti := rfl
@[simp] theorem State.dropWrite_sr (s : State) : s.dropWrite.sr = s.sr := rfl
@[simp] theorem State.dropWrite_pres (s : State) : s.dropWrite.pres = s.pres := rfl
@[simp] theorem State.dropWrite_oe (s : State) : s.dropWrite.oe = s.oe := rfl
@[simp] theorem State.dropWrite_pins (s : State) : s.dropWrite.pins = s.pins := rfl
@[simp] theorem State.dropWrite_ansReset (s : State) : s.dropWrite.ansReset = s.ansReset := rfl
@[simp] theorem State.dropWrite_ansWrite (s : State) : s.dropWrite.ansWrite = s.ansWrite.tail := rfl
@[simp] theorem State.dropWrite_ansRead (s : State) : s.dropWrite.ansRead = s.ansRead := rfl
@[simp] theorem State.dropWrite_asks (s : State) : s.dropWrite.asks = if s.ansWrite.isEmpty then s.asks + 1 else s.asks := rfl
@[simp] theorem State.dropWrite_slot (s : State) : s.dropWrite.slot = s.slot := rfl
@[simp] theorem State.dropWrite_trace (s : State) : s.dropWrite.trace = s.trace := rfl
@[simp] theorem State.dropWrite_wire (s : State) : s.dropWrite.wire = s.wire := rfl

/-! ### `dropRead` -/

@[simp] theorem State.dropRead_pat (s : State) : s.dropRead.pat = s.pat := rfl
@[simp] theorem State.dropRead_romcode (s : State) : s.dropRead.romcode = s.romcode := rfl
@[simp] theorem State.dropRead_oldcode (s : State) : s.dropRead.oldcode = s.oldcode := rfl
@[simp] theorem State.dropRead_upc (s : State) : s.dropRead.upc = s.upc := rfl
@[simp] theorem State.dropRead_op (s : State) : s.dropRead.op = s.op := rfl
@[simp] theorem State.dropRead_busy (s : State) : s.dropRead.busy = s.busy := rfl
@[simp] theorem State.dropRead_done (s : State) : s.dropRead.done = s.done := rfl
@[simp] theorem State.dropRead_valid (s : State) : s.dropRead.valid = s.valid := rfl
@[simp] theorem State.dropRead_oldvalid (s : State) : s.dropRead.oldvalid = s.oldvalid := rfl
@[simp] theorem State.dropRead_matched (s : State) : s.dropRead.matched = s.matched := rfl
@[simp] theorem State.dropRead_err (s : State) : s.dropRead.err = s.err := rfl
@[simp] theorem State.dropRead_fstep (s : State) : s.dropRead.fstep = s.fstep := rfl
@[simp] theorem State.dropRead_tcnt (s : State) : s.dropRead.tcnt = s.tcnt := rfl
@[simp] theorem State.dropRead_biti (s : State) : s.dropRead.biti = s.biti := rfl
@[simp] theorem State.dropRead_sr (s : State) : s.dropRead.sr = s.sr := rfl
@[simp] theorem State.dropRead_pres (s : State) : s.dropRead.pres = s.pres := rfl
@[simp] theorem State.dropRead_oe (s : State) : s.dropRead.oe = s.oe := rfl
@[simp] theorem State.dropRead_pins (s : State) : s.dropRead.pins = s.pins := rfl
@[simp] theorem State.dropRead_ansReset (s : State) : s.dropRead.ansReset = s.ansReset := rfl
@[simp] theorem State.dropRead_ansWrite (s : State) : s.dropRead.ansWrite = s.ansWrite := rfl
@[simp] theorem State.dropRead_ansRead (s : State) : s.dropRead.ansRead = s.ansRead.tail := rfl
@[simp] theorem State.dropRead_asks (s : State) : s.dropRead.asks = if s.ansRead.isEmpty then s.asks + 1 else s.asks := rfl
@[simp] theorem State.dropRead_slot (s : State) : s.dropRead.slot = s.slot := rfl
@[simp] theorem State.dropRead_trace (s : State) : s.dropRead.trace = s.trace := rfl
@[simp] theorem State.dropRead_wire (s : State) : s.dropRead.wire = s.wire := rfl

/-! ### `nextBit` -/

@[simp] theorem State.nextBit_pat (s : State) : s.nextBit.pat = s.pat := rfl
@[simp] theorem State.nextBit_romcode (s : State) : s.nextBit.romcode = s.romcode := rfl
@[simp] theorem State.nextBit_oldcode (s : State) : s.nextBit.oldcode = s.oldcode := rfl
@[simp] theorem State.nextBit_upc (s : State) : s.nextBit.upc = s.upc := rfl
@[simp] theorem State.nextBit_op (s : State) : s.nextBit.op = s.op := rfl
@[simp] theorem State.nextBit_busy (s : State) : s.nextBit.busy = s.busy := rfl
@[simp] theorem State.nextBit_done (s : State) : s.nextBit.done = s.done := rfl
@[simp] theorem State.nextBit_valid (s : State) : s.nextBit.valid = s.valid := rfl
@[simp] theorem State.nextBit_oldvalid (s : State) : s.nextBit.oldvalid = s.oldvalid := rfl
@[simp] theorem State.nextBit_matched (s : State) : s.nextBit.matched = s.matched := rfl
@[simp] theorem State.nextBit_err (s : State) : s.nextBit.err = s.err := rfl
@[simp] theorem State.nextBit_fstep (s : State) : s.nextBit.fstep = s.fstep := rfl
@[simp] theorem State.nextBit_tcnt (s : State) : s.nextBit.tcnt = s.tcnt := rfl
@[simp] theorem State.nextBit_biti (s : State) : s.nextBit.biti = s.biti + 1 := rfl
@[simp] theorem State.nextBit_sr (s : State) : s.nextBit.sr = s.sr := rfl
@[simp] theorem State.nextBit_pres (s : State) : s.nextBit.pres = s.pres := rfl
@[simp] theorem State.nextBit_oe (s : State) : s.nextBit.oe = s.oe := rfl
@[simp] theorem State.nextBit_pins (s : State) : s.nextBit.pins = s.pins := rfl
@[simp] theorem State.nextBit_ansReset (s : State) : s.nextBit.ansReset = s.ansReset := rfl
@[simp] theorem State.nextBit_ansWrite (s : State) : s.nextBit.ansWrite = s.ansWrite := rfl
@[simp] theorem State.nextBit_ansRead (s : State) : s.nextBit.ansRead = s.ansRead := rfl
@[simp] theorem State.nextBit_asks (s : State) : s.nextBit.asks = s.asks := rfl
@[simp] theorem State.nextBit_slot (s : State) : s.nextBit.slot = s.slot := rfl
@[simp] theorem State.nextBit_trace (s : State) : s.nextBit.trace = s.trace := rfl
@[simp] theorem State.nextBit_wire (s : State) : s.nextBit.wire = s.wire := rfl

/-! ### `shiftIn` -/

@[simp] theorem State.shiftIn_pat (s : State) (b : Bool) : (s.shiftIn b).pat = s.pat := rfl
@[simp] theorem State.shiftIn_romcode (s : State) (b : Bool) : (s.shiftIn b).romcode = s.romcode := rfl
@[simp] theorem State.shiftIn_oldcode (s : State) (b : Bool) : (s.shiftIn b).oldcode = s.oldcode := rfl
@[simp] theorem State.shiftIn_upc (s : State) (b : Bool) : (s.shiftIn b).upc = s.upc := rfl
@[simp] theorem State.shiftIn_op (s : State) (b : Bool) : (s.shiftIn b).op = s.op := rfl
@[simp] theorem State.shiftIn_busy (s : State) (b : Bool) : (s.shiftIn b).busy = s.busy := rfl
@[simp] theorem State.shiftIn_done (s : State) (b : Bool) : (s.shiftIn b).done = s.done := rfl
@[simp] theorem State.shiftIn_valid (s : State) (b : Bool) : (s.shiftIn b).valid = s.valid := rfl
@[simp] theorem State.shiftIn_oldvalid (s : State) (b : Bool) : (s.shiftIn b).oldvalid = s.oldvalid := rfl
@[simp] theorem State.shiftIn_matched (s : State) (b : Bool) : (s.shiftIn b).matched = s.matched := rfl
@[simp] theorem State.shiftIn_err (s : State) (b : Bool) : (s.shiftIn b).err = s.err := rfl
@[simp] theorem State.shiftIn_fstep (s : State) (b : Bool) : (s.shiftIn b).fstep = s.fstep := rfl
@[simp] theorem State.shiftIn_tcnt (s : State) (b : Bool) : (s.shiftIn b).tcnt = s.tcnt := rfl
@[simp] theorem State.shiftIn_biti (s : State) (b : Bool) : (s.shiftIn b).biti = s.biti := rfl
@[simp] theorem State.shiftIn_sr (s : State) (b : Bool) : (s.shiftIn b).sr = setBit s.sr s.biti b := rfl
@[simp] theorem State.shiftIn_pres (s : State) (b : Bool) : (s.shiftIn b).pres = s.pres := rfl
@[simp] theorem State.shiftIn_oe (s : State) (b : Bool) : (s.shiftIn b).oe = s.oe := rfl
@[simp] theorem State.shiftIn_pins (s : State) (b : Bool) : (s.shiftIn b).pins = s.pins := rfl
@[simp] theorem State.shiftIn_ansReset (s : State) (b : Bool) : (s.shiftIn b).ansReset = s.ansReset := rfl
@[simp] theorem State.shiftIn_ansWrite (s : State) (b : Bool) : (s.shiftIn b).ansWrite = s.ansWrite := rfl
@[simp] theorem State.shiftIn_ansRead (s : State) (b : Bool) : (s.shiftIn b).ansRead = s.ansRead := rfl
@[simp] theorem State.shiftIn_asks (s : State) (b : Bool) : (s.shiftIn b).asks = s.asks := rfl
@[simp] theorem State.shiftIn_slot (s : State) (b : Bool) : (s.shiftIn b).slot = s.slot := rfl
@[simp] theorem State.shiftIn_trace (s : State) (b : Bool) : (s.shiftIn b).trace = s.trace := rfl
@[simp] theorem State.shiftIn_wire (s : State) (b : Bool) : (s.shiftIn b).wire = s.wire := rfl

/-! ### `abort` -/

@[simp] theorem State.abort_pat (s : State) (e : ErrCode) : (s.abort e).pat = s.pat := rfl
@[simp] theorem State.abort_romcode (s : State) (e : ErrCode) : (s.abort e).romcode = s.romcode := rfl
@[simp] theorem State.abort_oldcode (s : State) (e : ErrCode) : (s.abort e).oldcode = s.oldcode := rfl
@[simp] theorem State.abort_upc (s : State) (e : ErrCode) : (s.abort e).upc = 0 := rfl
@[simp] theorem State.abort_op (s : State) (e : ErrCode) : (s.abort e).op = s.op := rfl
@[simp] theorem State.abort_busy (s : State) (e : ErrCode) : (s.abort e).busy = false := rfl
@[simp] theorem State.abort_done (s : State) (e : ErrCode) : (s.abort e).done = true := rfl
@[simp] theorem State.abort_valid (s : State) (e : ErrCode) : (s.abort e).valid = s.valid := rfl
@[simp] theorem State.abort_oldvalid (s : State) (e : ErrCode) : (s.abort e).oldvalid = s.oldvalid := rfl
@[simp] theorem State.abort_matched (s : State) (e : ErrCode) : (s.abort e).matched = s.matched := rfl
@[simp] theorem State.abort_err (s : State) (e : ErrCode) : (s.abort e).err = e := rfl
@[simp] theorem State.abort_fstep (s : State) (e : ErrCode) : (s.abort e).fstep = s.stepCode := rfl
@[simp] theorem State.abort_tcnt (s : State) (e : ErrCode) : (s.abort e).tcnt = 0 := rfl
@[simp] theorem State.abort_biti (s : State) (e : ErrCode) : (s.abort e).biti = 0 := rfl
@[simp] theorem State.abort_sr (s : State) (e : ErrCode) : (s.abort e).sr = s.sr := rfl
@[simp] theorem State.abort_pres (s : State) (e : ErrCode) : (s.abort e).pres = s.pres := rfl
@[simp] theorem State.abort_oe (s : State) (e : ErrCode) : (s.abort e).oe = false := rfl
@[simp] theorem State.abort_pins (s : State) (e : ErrCode) : (s.abort e).pins = s.pins := rfl
@[simp] theorem State.abort_ansReset (s : State) (e : ErrCode) : (s.abort e).ansReset = s.ansReset := rfl
@[simp] theorem State.abort_ansWrite (s : State) (e : ErrCode) : (s.abort e).ansWrite = s.ansWrite := rfl
@[simp] theorem State.abort_ansRead (s : State) (e : ErrCode) : (s.abort e).ansRead = s.ansRead := rfl
@[simp] theorem State.abort_asks (s : State) (e : ErrCode) : (s.abort e).asks = s.asks := rfl
@[simp] theorem State.abort_slot (s : State) (e : ErrCode) : (s.abort e).slot = s.slot := rfl
@[simp] theorem State.abort_trace (s : State) (e : ErrCode) : (s.abort e).trace = s.trace := rfl
@[simp] theorem State.abort_wire (s : State) (e : ErrCode) : (s.abort e).wire = s.wire := rfl

/-! ### `complete` -/

@[simp] theorem State.complete_pat (s : State) : s.complete.pat = s.pat := rfl
@[simp] theorem State.complete_romcode (s : State) : s.complete.romcode = s.romcode := rfl
@[simp] theorem State.complete_oldcode (s : State) : s.complete.oldcode = s.oldcode := rfl
@[simp] theorem State.complete_upc (s : State) : s.complete.upc = 0 := rfl
@[simp] theorem State.complete_op (s : State) : s.complete.op = s.op := rfl
@[simp] theorem State.complete_busy (s : State) : s.complete.busy = false := rfl
@[simp] theorem State.complete_done (s : State) : s.complete.done = true := rfl
@[simp] theorem State.complete_valid (s : State) : s.complete.valid = true := rfl
@[simp] theorem State.complete_oldvalid (s : State) : s.complete.oldvalid = s.oldvalid := rfl
@[simp] theorem State.complete_matched (s : State) : s.complete.matched = s.endMatched := rfl
@[simp] theorem State.complete_err (s : State) : s.complete.err = s.endErr := rfl
@[simp] theorem State.complete_fstep (s : State) : s.complete.fstep = s.fstep := rfl
@[simp] theorem State.complete_tcnt (s : State) : s.complete.tcnt = s.tcnt := rfl
@[simp] theorem State.complete_biti (s : State) : s.complete.biti = s.biti := rfl
@[simp] theorem State.complete_sr (s : State) : s.complete.sr = s.sr := rfl
@[simp] theorem State.complete_pres (s : State) : s.complete.pres = s.pres := rfl
@[simp] theorem State.complete_oe (s : State) : s.complete.oe = s.oe := rfl
@[simp] theorem State.complete_pins (s : State) : s.complete.pins = s.pins := rfl
@[simp] theorem State.complete_ansReset (s : State) : s.complete.ansReset = s.ansReset := rfl
@[simp] theorem State.complete_ansWrite (s : State) : s.complete.ansWrite = s.ansWrite := rfl
@[simp] theorem State.complete_ansRead (s : State) : s.complete.ansRead = s.ansRead := rfl
@[simp] theorem State.complete_asks (s : State) : s.complete.asks = s.asks := rfl
@[simp] theorem State.complete_slot (s : State) : s.complete.slot = s.slot := rfl
@[simp] theorem State.complete_trace (s : State) : s.complete.trace = s.trace := rfl
@[simp] theorem State.complete_wire (s : State) : s.complete.wire = s.wire := rfl

/-! ### `accept` -/

@[simp] theorem State.accept_pat (s : State) (o : Op) : (s.accept o).pat = s.pat := rfl
@[simp] theorem State.accept_romcode (s : State) (o : Op) : (s.accept o).romcode = s.romcode := rfl
@[simp] theorem State.accept_oldcode (s : State) (o : Op) : (s.accept o).oldcode = s.oldcode := rfl
@[simp] theorem State.accept_upc (s : State) (o : Op) : (s.accept o).upc = 0 := rfl
@[simp] theorem State.accept_op (s : State) (o : Op) : (s.accept o).op = o := rfl
@[simp] theorem State.accept_busy (s : State) (o : Op) : (s.accept o).busy = true := rfl
@[simp] theorem State.accept_done (s : State) (o : Op) : (s.accept o).done = false := rfl
@[simp] theorem State.accept_valid (s : State) (o : Op) : (s.accept o).valid = false := rfl
@[simp] theorem State.accept_oldvalid (s : State) (o : Op) : (s.accept o).oldvalid = false := rfl
@[simp] theorem State.accept_matched (s : State) (o : Op) : (s.accept o).matched = false := rfl
@[simp] theorem State.accept_err (s : State) (o : Op) : (s.accept o).err = .none := rfl
@[simp] theorem State.accept_fstep (s : State) (o : Op) : (s.accept o).fstep = .idle := rfl
@[simp] theorem State.accept_tcnt (s : State) (o : Op) : (s.accept o).tcnt = s.tcnt := rfl
@[simp] theorem State.accept_biti (s : State) (o : Op) : (s.accept o).biti = s.biti := rfl
@[simp] theorem State.accept_sr (s : State) (o : Op) : (s.accept o).sr = s.sr := rfl
@[simp] theorem State.accept_pres (s : State) (o : Op) : (s.accept o).pres = s.pres := rfl
@[simp] theorem State.accept_oe (s : State) (o : Op) : (s.accept o).oe = s.oe := rfl
@[simp] theorem State.accept_pins (s : State) (o : Op) : (s.accept o).pins = s.pins := rfl
@[simp] theorem State.accept_ansReset (s : State) (o : Op) : (s.accept o).ansReset = s.ansReset := rfl
@[simp] theorem State.accept_ansWrite (s : State) (o : Op) : (s.accept o).ansWrite = s.ansWrite := rfl
@[simp] theorem State.accept_ansRead (s : State) (o : Op) : (s.accept o).ansRead = s.ansRead := rfl
@[simp] theorem State.accept_asks (s : State) (o : Op) : (s.accept o).asks = s.asks := rfl
@[simp] theorem State.accept_slot (s : State) (o : Op) : (s.accept o).slot = s.slot := rfl
@[simp] theorem State.accept_trace (s : State) (o : Op) : (s.accept o).trace = s.trace := rfl
@[simp] theorem State.accept_wire (s : State) (o : Op) : (s.accept o).wire = s.wire := rfl

/-! ### `latchPat` -/

@[simp] theorem State.latchPat_pat (s : State) (p : BitVec 64) : (s.latchPat p).pat = unpackPort p := rfl
@[simp] theorem State.latchPat_romcode (s : State) (p : BitVec 64) : (s.latchPat p).romcode = s.romcode := rfl
@[simp] theorem State.latchPat_oldcode (s : State) (p : BitVec 64) : (s.latchPat p).oldcode = s.oldcode := rfl
@[simp] theorem State.latchPat_upc (s : State) (p : BitVec 64) : (s.latchPat p).upc = s.upc := rfl
@[simp] theorem State.latchPat_op (s : State) (p : BitVec 64) : (s.latchPat p).op = s.op := rfl
@[simp] theorem State.latchPat_busy (s : State) (p : BitVec 64) : (s.latchPat p).busy = s.busy := rfl
@[simp] theorem State.latchPat_done (s : State) (p : BitVec 64) : (s.latchPat p).done = s.done := rfl
@[simp] theorem State.latchPat_valid (s : State) (p : BitVec 64) : (s.latchPat p).valid = s.valid := rfl
@[simp] theorem State.latchPat_oldvalid (s : State) (p : BitVec 64) : (s.latchPat p).oldvalid = s.oldvalid := rfl
@[simp] theorem State.latchPat_matched (s : State) (p : BitVec 64) : (s.latchPat p).matched = s.matched := rfl
@[simp] theorem State.latchPat_err (s : State) (p : BitVec 64) : (s.latchPat p).err = s.err := rfl
@[simp] theorem State.latchPat_fstep (s : State) (p : BitVec 64) : (s.latchPat p).fstep = s.fstep := rfl
@[simp] theorem State.latchPat_tcnt (s : State) (p : BitVec 64) : (s.latchPat p).tcnt = s.tcnt := rfl
@[simp] theorem State.latchPat_biti (s : State) (p : BitVec 64) : (s.latchPat p).biti = s.biti := rfl
@[simp] theorem State.latchPat_sr (s : State) (p : BitVec 64) : (s.latchPat p).sr = s.sr := rfl
@[simp] theorem State.latchPat_pres (s : State) (p : BitVec 64) : (s.latchPat p).pres = s.pres := rfl
@[simp] theorem State.latchPat_oe (s : State) (p : BitVec 64) : (s.latchPat p).oe = s.oe := rfl
@[simp] theorem State.latchPat_pins (s : State) (p : BitVec 64) : (s.latchPat p).pins = s.pins := rfl
@[simp] theorem State.latchPat_ansReset (s : State) (p : BitVec 64) : (s.latchPat p).ansReset = s.ansReset := rfl
@[simp] theorem State.latchPat_ansWrite (s : State) (p : BitVec 64) : (s.latchPat p).ansWrite = s.ansWrite := rfl
@[simp] theorem State.latchPat_ansRead (s : State) (p : BitVec 64) : (s.latchPat p).ansRead = s.ansRead := rfl
@[simp] theorem State.latchPat_asks (s : State) (p : BitVec 64) : (s.latchPat p).asks = s.asks := rfl
@[simp] theorem State.latchPat_slot (s : State) (p : BitVec 64) : (s.latchPat p).slot = s.slot := rfl
@[simp] theorem State.latchPat_trace (s : State) (p : BitVec 64) : (s.latchPat p).trace = s.trace := rfl
@[simp] theorem State.latchPat_wire (s : State) (p : BitVec 64) : (s.latchPat p).wire = s.wire := rfl

/-! ### `fetched` -/

@[simp] theorem State.fetched_pat (s : State) : s.fetched.pat = s.pat := rfl
@[simp] theorem State.fetched_romcode (s : State) : s.fetched.romcode = s.romcode := rfl
@[simp] theorem State.fetched_oldcode (s : State) : s.fetched.oldcode = s.oldcode := rfl
@[simp] theorem State.fetched_upc (s : State) : s.fetched.upc = s.upc := rfl
@[simp] theorem State.fetched_op (s : State) : s.fetched.op = s.op := rfl
@[simp] theorem State.fetched_busy (s : State) : s.fetched.busy = s.busy := rfl
@[simp] theorem State.fetched_done (s : State) : s.fetched.done = s.done := rfl
@[simp] theorem State.fetched_valid (s : State) : s.fetched.valid = s.valid := rfl
@[simp] theorem State.fetched_oldvalid (s : State) : s.fetched.oldvalid = s.oldvalid := rfl
@[simp] theorem State.fetched_matched (s : State) : s.fetched.matched = s.matched := rfl
@[simp] theorem State.fetched_err (s : State) : s.fetched.err = s.err := rfl
@[simp] theorem State.fetched_fstep (s : State) : s.fetched.fstep = s.fstep := rfl
@[simp] theorem State.fetched_tcnt (s : State) : s.fetched.tcnt = s.tcnt := rfl
@[simp] theorem State.fetched_biti (s : State) : s.fetched.biti = s.biti := rfl
@[simp] theorem State.fetched_sr (s : State) : s.fetched.sr = s.sr := rfl
@[simp] theorem State.fetched_pres (s : State) : s.fetched.pres = s.pres := rfl
@[simp] theorem State.fetched_oe (s : State) : s.fetched.oe = s.oe := rfl
@[simp] theorem State.fetched_pins (s : State) : s.fetched.pins = s.pins.tail := rfl
@[simp] theorem State.fetched_ansReset (s : State) : s.fetched.ansReset = s.ansReset := rfl
@[simp] theorem State.fetched_ansWrite (s : State) : s.fetched.ansWrite = s.ansWrite := rfl
@[simp] theorem State.fetched_ansRead (s : State) : s.fetched.ansRead = s.ansRead := rfl
@[simp] theorem State.fetched_asks (s : State) : s.fetched.asks = s.asks := rfl
@[simp] theorem State.fetched_slot (s : State) : s.fetched.slot = none := rfl
@[simp] theorem State.fetched_trace (s : State) : s.fetched.trace = s.trace := rfl
@[simp] theorem State.fetched_wire (s : State) : s.fetched.wire = s.wire := rfl

/-! ### `storeByte` -/

@[simp] theorem State.storeByte_pat (s : State) (d : Dest) (k : Fin 8) (v : Byte) : (s.storeByte d k v).pat = s.pat := by
  cases d <;> rfl
@[simp] theorem State.storeByte_romcode_rom (s : State) (k : Fin 8) (v : Byte) :
    (s.storeByte .romcode k v).romcode = s.romcode.set k v := rfl
@[simp] theorem State.storeByte_romcode_old (s : State) (k : Fin 8) (v : Byte) :
    (s.storeByte .oldcode k v).romcode = s.romcode := rfl
@[simp] theorem State.storeByte_oldcode_old (s : State) (k : Fin 8) (v : Byte) :
    (s.storeByte .oldcode k v).oldcode = s.oldcode.set k v := rfl
@[simp] theorem State.storeByte_oldcode_rom (s : State) (k : Fin 8) (v : Byte) :
    (s.storeByte .romcode k v).oldcode = s.oldcode := rfl
@[simp] theorem State.storeByte_upc (s : State) (d : Dest) (k : Fin 8) (v : Byte) : (s.storeByte d k v).upc = s.upc := by
  cases d <;> rfl
@[simp] theorem State.storeByte_op (s : State) (d : Dest) (k : Fin 8) (v : Byte) : (s.storeByte d k v).op = s.op := by
  cases d <;> rfl
@[simp] theorem State.storeByte_busy (s : State) (d : Dest) (k : Fin 8) (v : Byte) : (s.storeByte d k v).busy = s.busy := by
  cases d <;> rfl
@[simp] theorem State.storeByte_done (s : State) (d : Dest) (k : Fin 8) (v : Byte) : (s.storeByte d k v).done = s.done := by
  cases d <;> rfl
@[simp] theorem State.storeByte_valid (s : State) (d : Dest) (k : Fin 8) (v : Byte) : (s.storeByte d k v).valid = s.valid := by
  cases d <;> rfl
@[simp] theorem State.storeByte_oldvalid_old (s : State) (k : Fin 8) (v : Byte) :
    (s.storeByte .oldcode k v).oldvalid = (s.oldvalid || k == 7) := rfl
@[simp] theorem State.storeByte_oldvalid_rom (s : State) (k : Fin 8) (v : Byte) :
    (s.storeByte .romcode k v).oldvalid = s.oldvalid := rfl
@[simp] theorem State.storeByte_matched (s : State) (d : Dest) (k : Fin 8) (v : Byte) : (s.storeByte d k v).matched = s.matched := by
  cases d <;> rfl
@[simp] theorem State.storeByte_err (s : State) (d : Dest) (k : Fin 8) (v : Byte) : (s.storeByte d k v).err = s.err := by
  cases d <;> rfl
@[simp] theorem State.storeByte_fstep (s : State) (d : Dest) (k : Fin 8) (v : Byte) : (s.storeByte d k v).fstep = s.fstep := by
  cases d <;> rfl
@[simp] theorem State.storeByte_tcnt (s : State) (d : Dest) (k : Fin 8) (v : Byte) : (s.storeByte d k v).tcnt = s.tcnt := by
  cases d <;> rfl
@[simp] theorem State.storeByte_biti (s : State) (d : Dest) (k : Fin 8) (v : Byte) : (s.storeByte d k v).biti = s.biti := by
  cases d <;> rfl
@[simp] theorem State.storeByte_sr (s : State) (d : Dest) (k : Fin 8) (v : Byte) : (s.storeByte d k v).sr = s.sr := by
  cases d <;> rfl
@[simp] theorem State.storeByte_pres (s : State) (d : Dest) (k : Fin 8) (v : Byte) : (s.storeByte d k v).pres = s.pres := by
  cases d <;> rfl
@[simp] theorem State.storeByte_oe (s : State) (d : Dest) (k : Fin 8) (v : Byte) : (s.storeByte d k v).oe = s.oe := by
  cases d <;> rfl
@[simp] theorem State.storeByte_pins (s : State) (d : Dest) (k : Fin 8) (v : Byte) : (s.storeByte d k v).pins = s.pins := by
  cases d <;> rfl
@[simp] theorem State.storeByte_ansReset (s : State) (d : Dest) (k : Fin 8) (v : Byte) : (s.storeByte d k v).ansReset = s.ansReset := by
  cases d <;> rfl
@[simp] theorem State.storeByte_ansWrite (s : State) (d : Dest) (k : Fin 8) (v : Byte) : (s.storeByte d k v).ansWrite = s.ansWrite := by
  cases d <;> rfl
@[simp] theorem State.storeByte_ansRead (s : State) (d : Dest) (k : Fin 8) (v : Byte) : (s.storeByte d k v).ansRead = s.ansRead := by
  cases d <;> rfl
@[simp] theorem State.storeByte_asks (s : State) (d : Dest) (k : Fin 8) (v : Byte) : (s.storeByte d k v).asks = s.asks := by
  cases d <;> rfl
@[simp] theorem State.storeByte_slot (s : State) (d : Dest) (k : Fin 8) (v : Byte) : (s.storeByte d k v).slot = s.slot := by
  cases d <;> rfl
@[simp] theorem State.storeByte_trace (s : State) (d : Dest) (k : Fin 8) (v : Byte) : (s.storeByte d k v).trace = s.trace := by
  cases d <;> rfl
@[simp] theorem State.storeByte_wire (s : State) (d : Dest) (k : Fin 8) (v : Byte) : (s.storeByte d k v).wire = s.wire := by
  cases d <;> rfl

/-! ### `advance` -/

@[simp] theorem State.advance_pat (s : State) : s.advance.pat = s.pat := by
  unfold State.advance; split <;> rfl
@[simp] theorem State.advance_romcode (s : State) : s.advance.romcode = s.romcode := by
  unfold State.advance; split <;> rfl
@[simp] theorem State.advance_oldcode (s : State) : s.advance.oldcode = s.oldcode := by
  unfold State.advance; split <;> rfl
@[simp] theorem State.advance_upc (s : State) : s.advance.upc = if s.atEnd then 0 else s.upc + 1 := by
  unfold State.advance; split <;> simp_all
@[simp] theorem State.advance_op (s : State) : s.advance.op = s.op := by
  unfold State.advance; split <;> rfl
@[simp] theorem State.advance_busy (s : State) : s.advance.busy = (!s.atEnd && s.busy) := by
  unfold State.advance; split <;> simp_all
@[simp] theorem State.advance_done (s : State) : s.advance.done = (s.atEnd || s.done) := by
  unfold State.advance; split <;> simp_all
@[simp] theorem State.advance_valid (s : State) : s.advance.valid = (s.atEnd || s.valid) := by
  unfold State.advance; split <;> simp_all
@[simp] theorem State.advance_oldvalid (s : State) : s.advance.oldvalid = s.oldvalid := by
  unfold State.advance; split <;> rfl
@[simp] theorem State.advance_matched (s : State) : s.advance.matched = if s.atEnd then s.endMatched else s.matched := by
  unfold State.advance; split <;> simp_all
@[simp] theorem State.advance_err (s : State) : s.advance.err = if s.atEnd then s.endErr else s.err := by
  unfold State.advance; split <;> simp_all
@[simp] theorem State.advance_fstep (s : State) : s.advance.fstep = s.fstep := by
  unfold State.advance; split <;> rfl
@[simp] theorem State.advance_tcnt (s : State) : s.advance.tcnt = s.tcnt := by
  unfold State.advance; split <;> rfl
@[simp] theorem State.advance_biti (s : State) : s.advance.biti = s.biti := by
  unfold State.advance; split <;> rfl
@[simp] theorem State.advance_sr (s : State) : s.advance.sr = s.sr := by
  unfold State.advance; split <;> rfl
@[simp] theorem State.advance_pres (s : State) : s.advance.pres = s.pres := by
  unfold State.advance; split <;> rfl
@[simp] theorem State.advance_oe (s : State) : s.advance.oe = s.oe := by
  unfold State.advance; split <;> rfl
@[simp] theorem State.advance_pins (s : State) : s.advance.pins = s.pins := by
  unfold State.advance; split <;> rfl
@[simp] theorem State.advance_ansReset (s : State) : s.advance.ansReset = s.ansReset := by
  unfold State.advance; split <;> rfl
@[simp] theorem State.advance_ansWrite (s : State) : s.advance.ansWrite = s.ansWrite := by
  unfold State.advance; split <;> rfl
@[simp] theorem State.advance_ansRead (s : State) : s.advance.ansRead = s.ansRead := by
  unfold State.advance; split <;> rfl
@[simp] theorem State.advance_asks (s : State) : s.advance.asks = s.asks := by
  unfold State.advance; split <;> rfl
@[simp] theorem State.advance_slot (s : State) : s.advance.slot = s.slot := by
  unfold State.advance; split <;> rfl
@[simp] theorem State.advance_trace (s : State) : s.advance.trace = s.trace := by
  unfold State.advance; split <;> rfl
@[simp] theorem State.advance_wire (s : State) : s.advance.wire = s.wire := by
  unfold State.advance; split <;> rfl

/-! ### What the functions of the state read -/

/-- STEP reads BUSY, OP and UPC only (R33). -/
theorem State.stepCode_congr {s t : State} (hb : s.busy = t.busy) (ho : s.op = t.op) (hu : s.upc = t.upc) :
    s.stepCode = t.stepCode := by
  simp only [State.stepCode, hb, ho, hu]

/-- The end of the program is a matter of OP and UPC only (R30). -/
theorem State.atEnd_congr {s t : State} (ho : s.op = t.op) (hu : s.upc = t.upc) : s.atEnd = t.atEnd := by
  simp only [State.atEnd, ho, hu]

/-- MATCH compares PAT and ROMCODE only (R232). -/
theorem State.matches_congr {s t : State} (hp : s.pat = t.pat) (hr : s.romcode = t.romcode) :
    s.matches = t.matches := by
  simp only [State.matches, hp, hr]

/-- MATCH, in words (R232). -/
theorem State.matches_iff (s : State) : s.matches = true ↔ ∀ k : Fin 8, s.romcode[k] = ~~~s.pat[k] := by
  simp only [State.matches, List.all_eq_true, beq_iff_eq, idOf]
  constructor
  · intro h k
    exact h k (by fin_cases k <;> simp [indices])
  · intro h k _
    exact h k

end Sys2Proof.Machine
end

