-- ==== Sys2Proof/Laws/Ops.lean ====
section
/-! SUPPORT. What each shared operation can do, said once: its result on listed answers, and its frame on any. -/

namespace Sys2Proof.Machine

/-! ### The oracle -/

@[simp] theorem resetAnswer_cons (s : State) (a : ResetAnswer) (l : List ResetAnswer) (h : s.ansReset = a :: l) :
    s.resetAnswer = a := by
  simp only [State.resetAnswer, h]

@[simp] theorem writeAnswer_cons (s : State) (b : Bool) (a : WriteAnswer) (l : List WriteAnswer)
    (h : s.ansWrite = a :: l) : s.writeAnswer b = a := by
  simp only [State.writeAnswer, h]

@[simp] theorem readAnswer_cons (s : State) (a : ReadAnswer) (l : List ReadAnswer) (h : s.ansRead = a :: l) :
    s.readAnswer = a := by
  simp only [State.readAnswer, h]

theorem dropReset_cons (s : State) (a : ResetAnswer) (l : List ResetAnswer) (h : s.ansReset = a :: l) :
    s.dropReset = { s with ansReset := l } := by
  simp only [State.dropReset, h, List.tail_cons, List.isEmpty_cons, Bool.false_eq_true, if_false]

theorem dropWrite_cons (s : State) (a : WriteAnswer) (l : List WriteAnswer) (h : s.ansWrite = a :: l) :
    s.dropWrite = { s with ansWrite := l } := by
  simp only [State.dropWrite, h, List.tail_cons, List.isEmpty_cons, Bool.false_eq_true, if_false]

theorem dropRead_cons (s : State) (a : ReadAnswer) (l : List ReadAnswer) (h : s.ansRead = a :: l) :
    s.dropRead = { s with ansRead := l } := by
  simp only [State.dropRead, h, List.tail_cons, List.isEmpty_cons, Bool.false_eq_true, if_false]

/-! ### Slots -/

/-- A write slot raises TransportTimingFault only (R122). -/
theorem wslot_cases (b : Bool) (s : State) :
    (s.writeAnswer b = .ok ∧ wslot b s = .ok (s.dropWrite.logWire (.w b))) ∨
    (s.writeAnswer b = .fault ∧ wslot b s = .raised .transportTimingFault s.dropWrite) := by
  unfold wslot
  cases h : s.writeAnswer b with
  | ok => exact .inl ⟨rfl, rfl⟩
  | fault => exact .inr ⟨rfl, rfl⟩

/-- A read slot raises TransportTimingFault only (R124). -/
theorem rslot_cases (s : State) :
    (∃ b, s.readAnswer = .bit b ∧ rslot s = .ok b (s.dropRead.logWire (.r b))) ∨
    (s.readAnswer = .fault ∧ rslot s = .raised .transportTimingFault s.dropRead) := by
  unfold rslot
  cases h : s.readAnswer with
  | bit b => exact .inl ⟨b, rfl, rfl⟩
  | fault => exact .inr ⟨rfl, rfl⟩

/-- The state a transport operation ends in, whether it completed or raised. -/
def Flow.state (f : Flow) : State :=
  match f with
  | .ok s => s
  | .raised _ s => s

@[simp] theorem Flow.state_ok (s : State) : (Flow.ok s).state = s := rfl
@[simp] theorem Flow.state_raised (e : ErrCode) (s : State) : (Flow.raised e s).state = s := rfl
@[simp] theorem Flow.finish_ok (s : State) : (Flow.ok s).finish = s.advance := rfl
@[simp] theorem Flow.finish_raised (e : ErrCode) (s : State) : (Flow.raised e s).finish = s.abort e := rfl

/-- Back-to-back write slots change the answers, the wire and `BITI` only. -/
theorem wslots_frame (bits : List Bool) (s : State) :
    ∃ a n w b, (wslots bits s).state = { s with ansWrite := a, asks := n, wire := w, biti := b } := by
  induction bits generalizing s with
  | nil => exact ⟨s.ansWrite, s.asks, s.wire, s.biti, rfl⟩
  | cons b rest ih =>
    obtain ⟨-, h⟩ | ⟨-, h⟩ := wslot_cases b s
    · obtain ⟨a, n, w, c, e⟩ := ih (s.dropWrite.logWire (.w b)).nextBit
      exact ⟨a, n, w, c, by simp [wslots, h, e]⟩
    · exact ⟨s.dropWrite.ansWrite, s.dropWrite.asks, s.wire, s.biti, by simp only [wslots, h]; rfl⟩

/-- Back-to-back read slots change the answers, the wire, `BITI` and `SR` only. -/
theorem rslots_frame (n : Nat) (s : State) :
    ∃ a m w b x, (rslots n s).state = { s with ansRead := a, asks := m, wire := w, biti := b, sr := x } := by
  induction n generalizing s with
  | zero => exact ⟨s.ansRead, s.asks, s.wire, s.biti, s.sr, rfl⟩
  | succ n ih =>
    obtain ⟨b, -, h⟩ | ⟨-, h⟩ := rslot_cases s
    · obtain ⟨a, m, w, c, x, e⟩ := ih ((s.dropRead.logWire (.r b)).shiftIn b).nextBit
      exact ⟨a, m, w, c, x, by simp [rslots, h, e]⟩
    · exact ⟨s.dropRead.ansRead, s.dropRead.asks, s.wire, s.biti, s.sr, by simp only [rslots, h]; rfl⟩

/-- Slots raise TransportTimingFault only (R273). -/
theorem wslots_raised {bits : List Bool} {s t : State} {e : ErrCode} (h : wslots bits s = .raised e t) :
    e = .transportTimingFault := by
  induction bits generalizing s with
  | nil => cases h
  | cons b rest ih =>
    obtain ⟨-, hb⟩ | ⟨-, hb⟩ := wslot_cases b s
    · simp only [wslots, hb] at h
      exact ih h
    · simp only [wslots, hb, Flow.raised.injEq] at h
      exact h.1.symm

/-- Slots raise TransportTimingFault only (R273). -/
theorem rslots_raised {n : Nat} {s t : State} {e : ErrCode} (h : rslots n s = .raised e t) :
    e = .transportTimingFault := by
  induction n generalizing s with
  | zero => cases h
  | succ m ih =>
    obtain ⟨b, -, hb⟩ | ⟨-, hb⟩ := rslot_cases s
    · simp only [rslots, hb] at h
      exact ih h
    · simp only [rslots, hb, Flow.raised.injEq] at h
      exact h.1.symm

/-- Write slots that all complete: the bits stand on the wire in order, `BITI` has counted them (R122, R125). -/
theorem wslots_ok (bits : List Bool) (s : State) (l : List WriteAnswer)
    (h : s.ansWrite = List.replicate bits.length .ok ++ l) :
    wslots bits s = .ok { s with
      ansWrite := l, wire := s.wire ++ bits.map .w, biti := s.biti + BitVec.ofNat 3 bits.length } := by
  induction bits generalizing s with
  | nil =>
    simp only [List.length_nil, List.replicate_zero, List.nil_append] at h
    simp [wslots, ← h]
  | cons b rest ih =>
    simp only [List.length_cons, List.replicate_succ, List.cons_append] at h
    have hw : wslot b s = .ok ({ s with ansWrite := List.replicate rest.length WriteAnswer.ok ++ l }.logWire (.w b)) := by
      simp only [wslot, writeAnswer_cons s b _ _ h, dropWrite_cons s _ _ h]
    simp only [wslots, hw]
    rw [ih _ rfl]
    simp [State.nextBit, State.logWire, BitVec.add_assoc, BitVec.ofNat_add, BitVec.add_comm 1#3]

/-- A write fault in slot `pre.length`: the slots before it were sent, none after it (R126). -/
theorem wslots_fault (pre : List Bool) (b : Bool) (post : List Bool) (s : State) (l : List WriteAnswer)
    (h : s.ansWrite = List.replicate pre.length .ok ++ .fault :: l) :
    wslots (pre ++ b :: post) s = .raised .transportTimingFault { s with
      ansWrite := l, wire := s.wire ++ pre.map .w, biti := s.biti + BitVec.ofNat 3 pre.length } := by
  induction pre generalizing s with
  | nil =>
    simp only [List.length_nil, List.replicate_zero, List.nil_append] at h
    simp [wslots, wslot, writeAnswer_cons s b _ _ h, dropWrite_cons s _ _ h]
  | cons c rest ih =>
    simp only [List.length_cons, List.replicate_succ, List.cons_append] at h
    have hw : wslot c s =
        .ok ({ s with ansWrite := List.replicate rest.length WriteAnswer.ok ++ WriteAnswer.fault :: l }.logWire (.w c)) := by
      simp only [wslot, writeAnswer_cons s c _ _ h, dropWrite_cons s _ _ h]
    simp only [List.cons_append, wslots, hw]
    rw [ih _ rfl]
    simp [State.nextBit, State.logWire, BitVec.add_assoc, BitVec.ofNat_add, BitVec.add_comm 1#3]

/-- `SR` after the bits `bits`, with `BITI` at `i` before them (R170). -/
def shiftBits (x : Byte) (i : BitVec 3) (bits : List Bool) : Byte :=
  match bits with
  | [] => x
  | b :: rest => shiftBits (setBit x i b) (i + 1) rest

/-- Read slots that all complete (R124, R127). -/
theorem rslots_ok (bits : List Bool) (s : State) (l : List ReadAnswer)
    (h : s.ansRead = bits.map .bit ++ l) :
    rslots bits.length s = .ok { s with
      ansRead := l, wire := s.wire ++ bits.map WireEvent.r, biti := s.biti + BitVec.ofNat 3 bits.length,
      sr := shiftBits s.sr s.biti bits } := by
  induction bits generalizing s with
  | nil =>
    simp only [List.map_nil, List.nil_append] at h
    simp [rslots, shiftBits, ← h]
  | cons b rest ih =>
    simp only [List.map_cons, List.cons_append] at h
    have hr : rslot s = .ok b ({ s with ansRead := rest.map ReadAnswer.bit ++ l }.logWire (.r b)) := by
      simp only [rslot, readAnswer_cons s _ _ h, dropRead_cons s _ _ h]
    simp only [List.length_cons, rslots, hr]
    rw [ih _ rfl]
    simp [State.nextBit, State.shiftIn, State.logWire, shiftBits, BitVec.add_assoc, BitVec.ofNat_add,
      BitVec.add_comm 1#3]

/-- A read fault in slot `pre.length` (R127). -/
theorem rslots_fault (pre : List Bool) (n : Nat) (s : State) (l : List ReadAnswer)
    (h : s.ansRead = pre.map .bit ++ .fault :: l) :
    rslots (pre.length + (n + 1)) s = .raised .transportTimingFault { s with
      ansRead := l, wire := s.wire ++ pre.map .r, biti := s.biti + BitVec.ofNat 3 pre.length,
      sr := shiftBits s.sr s.biti pre } := by
  induction pre generalizing s with
  | nil =>
    simp only [List.map_nil, List.nil_append] at h
    simp [rslots, rslot, shiftBits, readAnswer_cons s _ _ h, dropRead_cons s _ _ h]
  | cons b rest ih =>
    simp only [List.map_cons, List.cons_append] at h
    have hr : rslot s = .ok b ({ s with ansRead := rest.map ReadAnswer.bit ++ ReadAnswer.fault :: l }.logWire (.r b)) := by
      simp only [rslot, readAnswer_cons s _ _ h, dropRead_cons s _ _ h]
    have hl : (b :: rest).length + (n + 1) = (rest.length + (n + 1)) + 1 := by
      simp only [List.length_cons]
      omega
    have hi := ih (({ s with ansRead := rest.map ReadAnswer.bit ++ ReadAnswer.fault :: l }.logWire
      (.r b)).shiftIn b).nextBit rfl
    rw [hl, rslots, hr]
    simp only [hi]
    simp [State.nextBit, State.shiftIn, State.logWire, shiftBits, BitVec.add_assoc, BitVec.ofNat_add,
      BitVec.add_comm 1#3]

@[simp] theorem byteBits_length (v : Byte) : (byteBits v).length = 8 := by
  simp [byteBits, indices]

/-- Eight bits from an empty `SR` are the assembled byte (R127, R137b). -/
theorem shiftBits_eight (b0 b1 b2 b3 b4 b5 b6 b7 : Bool) :
    shiftBits 0 0 [b0, b1, b2, b3, b4, b5, b6, b7] = assemble [b0, b1, b2, b3, b4, b5, b6, b7] := by
  revert b0 b1 b2 b3 b4 b5 b6 b7
  decide

/-- A list of eight bits, written out. -/
theorem eight_bits {α : Type} {bits : List α} (h : bits.length = 8) :
    ∃ b0 b1 b2 b3 b4 b5 b6 b7, bits = [b0, b1, b2, b3, b4, b5, b6, b7] := by
  match bits, h with
  | [b0, b1, b2, b3, b4, b5, b6, b7], _ => exact ⟨b0, b1, b2, b3, b4, b5, b6, b7, rfl⟩

/-- The bits of an assembled byte are the bits assembled (R63). -/
theorem byteBits_assemble {bits : List Bool} (h : bits.length = 8) : byteBits (assemble bits) = bits := by
  obtain ⟨b0, b1, b2, b3, b4, b5, b6, b7, rfl⟩ := eight_bits h
  revert b0 b1 b2 b3 b4 b5 b6 b7
  decide

/-- Assembling the bits of a byte gives the byte (R63). -/
theorem assemble_byteBits (v : Byte) : assemble (byteBits v) = v := by
  revert v
  decide

/-- `MemWrite(BUS, 8, v)` with eight Ok answers (R125). -/
theorem writeByte_ok (v : Byte) (s : State) (l : List WriteAnswer)
    (h : s.ansWrite = List.replicate 8 .ok ++ l) :
    writeByte v s = .ok { s with ansWrite := l, wire := s.wire ++ (byteBits v).map .w, biti := 0 } := by
  unfold writeByte
  rw [wslots_ok (byteBits v) _ l (by simpa using h)]
  simp

/-- `MemRead(BUS, 8)` with eight answered bits (R127). -/
theorem readByte_ok (bits : List Bool) (hb : bits.length = 8) (s : State) (l : List ReadAnswer)
    (h : s.ansRead = bits.map .bit ++ l) :
    readByte s = .ok { s with
      ansRead := l, wire := s.wire ++ bits.map WireEvent.r, biti := 0, sr := assemble bits } := by
  unfold readByte
  have hr := rslots_ok bits { s with biti := 0, sr := 0 } l h
  rw [hb] at hr
  rw [hr]
  obtain ⟨b0, b1, b2, b3, b4, b5, b6, b7, rfl⟩ := eight_bits hb
  simp only [shiftBits_eight]
  simp

/-! ### Micro-operations -/

/-- What a RESET can do (R121). -/
theorem uopReset_cases (s : State) :
    (s.resetAnswer = .presence ∧ uopReset s =
      .ok (({ s.dropReset with pres := true }.logWire .reset).logCall (.reset .presence))) ∨
    (s.resetAnswer = .noPresence ∧ uopReset s = .raised .noDevicePresent
      (({ s.dropReset with pres := false }.logWire .reset).logCall (.reset .noPresence))) ∨
    (s.resetAnswer = .fault ∧ uopReset s =
      .raised .transportTimingFault (s.dropReset.logCall (.reset .fault))) := by
  unfold uopReset
  cases h : s.resetAnswer with
  | presence => exact .inl ⟨rfl, rfl⟩
  | noPresence => exact .inr (.inl ⟨rfl, rfl⟩)
  | fault => exact .inr (.inr ⟨rfl, rfl⟩)

/-- What a single-bit write can do (R122, R123). -/
theorem uopWbit_cases (b : Bool) (s : State) :
    (s.writeAnswer b = .ok ∧
      uopWbit b s = .ok ((s.dropWrite.logWire (.w b)).logCall (.wbit b none))) ∨
    (s.writeAnswer b = .fault ∧
      uopWbit b s = .raised .transportTimingFault (s.dropWrite.logCall (.wbit b (some 0)))) := by
  unfold uopWbit
  obtain ⟨h, hw⟩ | ⟨h, hw⟩ := wslot_cases b s
  · exact .inl ⟨h, by rw [hw]⟩
  · exact .inr ⟨h, by rw [hw]⟩

/-- WBYTE with eight Ok answers (R125). -/
theorem uopWbyte_ok (v : Byte) (s : State) (l : List WriteAnswer)
    (h : s.ansWrite = List.replicate 8 .ok ++ l) :
    uopWbyte v s = .ok { s with
      ansWrite := l, wire := s.wire ++ (byteBits v).map .w, biti := 0, trace := s.trace ++ [.wbyte v none] } := by
  simp only [uopWbyte, writeByte_ok v s l h]
  rfl

/-- RBYTE with eight answered bits (R127). -/
theorem uopRbyte_ok (d : Dest) (k : Fin 8) (bits : List Bool) (hb : bits.length = 8) (s : State)
    (l : List ReadAnswer) (h : s.ansRead = bits.map .bit ++ l) :
    uopRbyte d k s = .ok ((({ s with
      ansRead := l, wire := s.wire ++ bits.map WireEvent.r, biti := 0, sr := assemble bits }).storeByte d k
        (assemble bits)).logCall (.rbyte (assemble bits))) := by
  simp only [uopRbyte, readByte_ok bits hb s l h]

/-- WBYTE changes the answers, the wire, the trace and `BITI` only, whether it completes or raises. -/
theorem uopWbyte_frame (v : Byte) (s : State) :
    ∃ a n w b tr, (uopWbyte v s).state = { s with ansWrite := a, asks := n, wire := w, biti := b, trace := tr } := by
  obtain ⟨a, n, w, b, e⟩ := wslots_frame (byteBits v) { s with biti := 0 }
  unfold uopWbyte writeByte
  cases h : wslots (byteBits v) { s with biti := 0 } with
  | ok t =>
    rw [h, Flow.state_ok] at e
    exact ⟨a, n, w, b, s.trace ++ [.wbyte v none], by simp [e, State.logCall]⟩
  | raised c t =>
    rw [h, Flow.state_raised] at e
    exact ⟨a, n, w, b, s.trace ++ [.wbyte v (some b)], by simp [e, State.logCall]⟩

/-- A read byte changes the answers, the wire, `BITI` and `SR` only, whether it completes or raises. -/
theorem readByte_frame (s : State) :
    ∃ a n w b x, (readByte s).state = { s with ansRead := a, asks := n, wire := w, biti := b, sr := x } := by
  obtain ⟨a, n, w, b, x, e⟩ := rslots_frame 8 { s with biti := 0, sr := 0 }
  exact ⟨a, n, w, b, x, by unfold readByte; rw [e]⟩

/-! ### Runs -/

@[simp] theorem runSeq_nil (s : State) : runSeq [] s = s := rfl

/-- A run goes on while its micro-operations complete short of the program's end (R120). -/
theorem runSeq_ok {f : State → Flow} {rest : List (State → Flow)} {s t : State} (h : f s = .ok t)
    (he : t.atEnd = false) : runSeq (f :: rest) s = runSeq rest t.advance := by
  simp [runSeq, h, he]

/-- A run ends with the micro-operation that ends the program (R258). -/
theorem runSeq_end {f : State → Flow} {rest : List (State → Flow)} {s t : State} (h : f s = .ok t)
    (he : t.atEnd = true) : runSeq (f :: rest) s = t.advance := by
  simp [runSeq, h, he]

/-- A run ends with the micro-operation that raises (R280). -/
theorem runSeq_raised {f : State → Flow} {rest : List (State → Flow)} {s t : State} {e : ErrCode}
    (h : f s = .raised e t) : runSeq (f :: rest) s = t.abort e := by
  simp [runSeq, h]

/-! ### Words and steps -/

/-- The micro-program has a word at every legal `UPC` (R30, R203, R217). -/
@[simp] theorem progWords_length (o : Op) : (progWords o).length = progLen o := by
  cases o <;> decide +kernel

/-- The words of one byte of state 6 decode to its WBITP and WAIT10 micro-operations (R191, R217). -/
theorem codecWords_instrs (k : Fin 8) : (codecWords k).map (fun w => (decodeUop w).toOption) =
    indices.flatMap fun i => [some (.wbitp k i), some .wait10] := by
  revert k
  decide +kernel

/-- The words of states 1 to 5 decode (R217). -/
theorem rewriteOpening_decode : (rewriteOpening.all fun w => (decodeUop w).toOption.isSome) = true := by
  decide +kernel

/-- The words of states 7 to 10 decode (R217). -/
theorem rewriteClosing_decode : (rewriteClosing.all fun w => (decodeUop w).toOption.isSome) = true := by
  decide +kernel

/-- The words of the READ program decode (R203). -/
theorem readWords_decode : (readWords.all fun w => (decodeUop w).toOption.isSome) = true := by decide +kernel

/-- The words of one byte of state 6 decode (R217). -/
theorem codecWords_decode (k : Fin 8) : ∀ w ∈ codecWords k, (decodeUop w).toOption.isSome = true := by
  intro w hw
  have hm : (decodeUop w).toOption ∈ (codecWords k).map (fun w => (decodeUop w).toOption) := List.mem_map_of_mem hw
  rw [codecWords_instrs k] at hm
  simp only [List.mem_flatMap, List.mem_cons, List.not_mem_nil, or_false] at hm
  obtain ⟨i, -, h | h⟩ := hm <;> rw [h] <;> rfl

/-- The micro-operations of both programs decode (R97). -/
theorem progWords_decode (o : Op) : ∀ w ∈ progWords o, ∃ i, decodeUop w = .ok i := by
  have h : ∀ w ∈ progWords o, ((decodeUop w).toOption).isSome = true := by
    cases o with
    | read => exact List.all_eq_true.mp readWords_decode
    | rewrite =>
      intro w hw
      simp only [progWords, rewriteWords, List.mem_append, List.mem_flatMap] at hw
      obtain (h | ⟨k, -, h⟩) | h := hw
      · exact List.all_eq_true.mp rewriteOpening_decode w h
      · exact codecWords_decode k w h
      · exact List.all_eq_true.mp rewriteClosing_decode w h
  intro w hw
  have := h w hw
  cases hd : decodeUop w with
  | ok i => exact ⟨i, rfl⟩
  | rejected r => rw [hd] at this; cases this

/-- A legal running state has a micro-operation (R120). -/
theorem programInstr_legal {s : State} (h : s.upc.toNat < progLen s.op) : ∃ i, s.programInstr = some i := by
  have hl : s.upc.toNat < (progWords s.op).length := by simpa using h
  obtain ⟨i, hi⟩ := progWords_decode s.op _ (List.getElem_mem hl)
  refine ⟨i, ?_⟩
  simp [State.programInstr, State.programWord, List.getElem?_eq_getElem hl, hi, Decoded.toOption]

end Sys2Proof.Machine
end

