-- ==== Sys2Proof/Laws/PerInstr.lean ====
section
/-! SUPPORT. Families of facts proved per instruction. `RoundTrip`: the decoder reads from an instruction's encoding
the instruction itself, with every operand at every value. -/

namespace Sys2Proof

/-- The command field of a HOSTCMD word (R91). -/
theorem hostWord_cmd (cmd : BitVec 2) (p : BitVec 64) : (hostWord cmd p).extractLsb' 64 2 = cmd := by
  ext i hi
  simp only [hostWord, BitVec.getElem_extractLsb', BitVec.getLsbD_append]
  rw [if_neg (by omega)]
  simp [BitVec.getLsbD_eq_getElem hi]

/-- The pattern field of a HOSTCMD word (R91). -/
theorem hostWord_patIn (cmd : BitVec 2) (p : BitVec 64) : (hostWord cmd p).extractLsb' 0 64 = p := by
  ext i hi
  simp only [hostWord, BitVec.getElem_extractLsb', BitVec.getLsbD_append]
  rw [if_pos (by omega)]
  simp [BitVec.getLsbD_eq_getElem hi]

end Sys2Proof

namespace Sys2Proof.Laws.RoundTrip

/-- Decoding the encoding of `i` gives `i`. -/
def Statement (i : Instr) : Prop := decode (encode i) = .ok i

theorem nop : Statement .nop := by unfold Statement; decide

theorem read : Statement .read := by unfold Statement; decide

theorem rewrite (p : BitVec 64) : Statement (.rewrite p) := by
  simp [Statement, encode, decode, decodeHost, hostWord_cmd, hostWord_patIn]

theorem reservedCmd : Statement .reservedCmd := by unfold Statement; decide

theorem reset : Statement .reset := by unfold Statement; decide

theorem wbyte (v : Byte) : Statement (.wbyte v) := by
  unfold Statement
  revert v
  decide

theorem wbit (b : Bool) : Statement (.wbit b) := by
  unfold Statement
  revert b
  decide

theorem wbitp (k i : Fin 8) : Statement (.wbitp k i) := by
  unfold Statement
  revert k i
  decide

theorem rbyte (d : Dest) (k : Fin 8) : Statement (.rbyte d k) := by
  unfold Statement
  cases d <;> revert k <;> decide

theorem wait10 : Statement .wait10 := by unfold Statement; decide

theorem owReadRom : Statement .owReadRom := by unfold Statement; decide

theorem owWriteEnable : Statement .owWriteEnable := by unfold Statement; decide

theorem owWriteDisable : Statement .owWriteDisable := by unfold Statement; decide

theorem owWriteData : Statement .owWriteData := by unfold Statement; decide

theorem romread (d : Dest) : Statement (.romread d) := by
  unfold Statement
  cases d <;> decide

theorem codec (k : Fin 8) : Statement (.codec k) := by
  unfold Statement
  revert k
  decide

end Sys2Proof.Laws.RoundTrip
end

