-- ==== Sys2Proof/Laws/Step.lean ====
section
/-! SUPPORT. What one step of each level can do, said once. -/

namespace Sys2Proof.Machine

/-- A completed micro-operation moves on or completes the command (R32, R258). -/
theorem advance_cases (s : State) :
    (s.upc.toNat + 1 ≠ progLen s.op ∧ s.advance = { s with upc := s.upc + 1 }) ∨
    (s.upc.toNat + 1 = progLen s.op ∧ s.advance = s.complete) := by
  by_cases h : s.upc.toNat + 1 = progLen s.op
  · exact .inr ⟨h, by simp [State.advance, State.atEnd, h]⟩
  · exact .inl ⟨h, by simp [State.advance, State.atEnd, h]⟩

/-- An RBYTE stores the assembled byte, or raises TransportTimingFault and stores nothing (R127). -/
theorem uopRbyte_cases (d : Dest) (k : Fin 8) (s : State) :
    ∃ a n w b x,
      (uopRbyte d k s = .ok ((({ s with ansRead := a, asks := n, wire := w, biti := b, sr := x }).storeByte d k x).logCall
        (.rbyte x))) ∨
      (uopRbyte d k s = .raised .transportTimingFault
        (({ s with ansRead := a, asks := n, wire := w, biti := b, sr := x }).logCall (.rbyteFault b))) := by
  obtain ⟨a, n, w, b, x, e⟩ := readByte_frame s
  refine ⟨a, n, w, b, x, ?_⟩
  cases h : readByte s with
  | ok t =>
    rw [h] at e
    simp only [Flow.state] at e
    exact .inl (by simp only [uopRbyte, h, e])
  | raised r t =>
    have hr : r = .transportTimingFault := by
      unfold readByte at h
      exact rslots_raised h
    rw [h] at e
    simp only [Flow.state] at e
    exact .inr (by simp only [uopRbyte, h, e, hr])

/-- A WBYTE completes, or raises TransportTimingFault (R125, R126). -/
theorem uopWbyte_cases (v : Byte) (s : State) :
    ∃ a n w b,
      (uopWbyte v s = .ok (({ s with ansWrite := a, asks := n, wire := w, biti := b }).logCall (.wbyte v none))) ∨
      (uopWbyte v s = .raised .transportTimingFault
        (({ s with ansWrite := a, asks := n, wire := w, biti := b }).logCall (.wbyte v (some b)))) := by
  obtain ⟨a, n, w, b, e⟩ := wslots_frame (byteBits v) { s with biti := 0 }
  refine ⟨a, n, w, b, ?_⟩
  cases h : wslots (byteBits v) { s with biti := 0 } with
  | ok t =>
    rw [h] at e
    simp only [Flow.state] at e
    exact .inl (by simp only [uopWbyte, writeByte, h, e])
  | raised r t =>
    have hr := wslots_raised h
    rw [h] at e
    simp only [Flow.state] at e
    exact .inr (by simp only [uopWbyte, writeByte, h, e, hr])

/-- One step of level T: `rst`, a decoded word, a refused word, or no word (R120, R252, R296). -/
theorem step_cases (s : State) :
    (s.pinsNow.rst = true ∧ step s = .next s.dropPins.applyReset) ∨
    (s.pinsNow.rst = false ∧ s.nextWord = none ∧ step s = .fault .noMicroOperation) ∨
    (∃ c i, s.pinsNow.rst = false ∧ s.nextWord = some c ∧ decode c = .ok i ∧ step s = exec i s.fetched) ∨
    (∃ c r, s.pinsNow.rst = false ∧ s.nextWord = some c ∧ decode c = .rejected r ∧
      step s = .refused (.undecodable r)) := by
  cases hr : s.pinsNow.rst with
  | true => exact .inl ⟨rfl, by simp [step, hr]⟩
  | false =>
    right
    cases hw : s.nextWord with
    | none => exact .inl ⟨rfl, rfl, by simp [step, hr, runNext, hw]⟩
    | some c =>
      right
      cases hd : decode c with
      | ok i => exact .inl ⟨c, i, rfl, rfl, hd, by simp [step, hr, runNext, hw, runWord, hd]⟩
      | rejected r => exact .inr ⟨c, r, rfl, rfl, hd, by simp [step, hr, runNext, hw, runWord, hd]⟩

/-- An idle core releases the line (R151). -/
@[simp] theorem owOe_idle (T : Timing) (x : TickIn) (s : State) (h : s.busy = false) : s.owOe T x = false := by
  simp [State.owOe, h]

/-- A running core drives the line as the timeline of its operation says (R154). -/
theorem owOe_busy (T : Timing) (x : TickIn) (s : State) (i : Instr) (o : LineOp) (hb : s.busy = true)
    (hi : s.programInstr = some i) (ho : lineOp i s = some o) :
    s.owOe T x = driveLow T o s.tcnt.toNat x.owIn := by
  simp [State.owOe, hb, hi, ho]

/-- One tick: `rst`, a line operation, a command sample, or no micro-operation (R252, R295, R310). -/
theorem tick_cases (T : Timing) (x : TickIn) (s : State) :
    (x.pins.rst = true ∧ tick T x s = .next s.applyReset) ∨
    (x.pins.rst = false ∧ s.busy = false ∧ tick T x s = exec (decodeHost x.pins.word) { s with oe := false }) ∨
    (∃ i o, x.pins.rst = false ∧ s.busy = true ∧ s.programInstr = some i ∧ lineOp i s = some o ∧
      tick T x s = .next (tickLine T x.owIn i o s)) ∨
    (x.pins.rst = false ∧ s.busy = true ∧ tick T x s = .fault .noMicroOperation) := by
  cases hr : x.pins.rst with
  | true => exact .inl ⟨rfl, by simp [tick, hr]⟩
  | false =>
    right
    cases hb : s.busy with
    | false => exact .inl ⟨rfl, rfl, by simp [tick, hr, hb, tickIdle]⟩
    | true =>
      right
      cases hi : s.programInstr with
      | none => exact .inr ⟨rfl, rfl, by simp [tick, hr, hb, tickBusy, hi]⟩
      | some i =>
        cases ho : lineOp i s with
        | none => exact .inr ⟨rfl, rfl, by simp [tick, hr, hb, tickBusy, hi, ho]⟩
        | some o => exact .inl ⟨i, o, rfl, rfl, rfl, ho, by simp [tick, hr, hb, tickBusy, hi, ho]⟩

end Sys2Proof.Machine
end

