-- ==== Sys2Proof/Tests/Slice0.lean ====
section
/-! SUPPORT. The model's own tests: `test_…`, one step or one word each, expected values from the tables of 30_encoding.md
and the vectors V<n> of 95_test_vectors.md; and `witness_…`, the hypotheses of each statement met together. -/

open Sys2Proof Sys2Proof.Machine

namespace Sys2Proof.Tests

/-- The outcome is a next state of which `p` holds. -/
def nextSat (o : Host.Outcome State Fault Refusal) (p : State → Bool) : Bool :=
  match o with
  | .next t => p t
  | .fault _ => false
  | .refused _ => false

/-- A core that runs `o` at micro-operation `u`. -/
def busyAt (o : Op) (u : BitVec 8) : State :=
  { State.reset with op := o, upc := u, busy := true, oldvalid := o == .rewrite && decide (10 ≤ u.toNat) }

/-- The fixture's patterns FE B3 8F B7 FF FF FF 5B (S4). -/
def fixture : Bytes8 := #v[0xFE, 0xB3, 0x8F, 0xB7, 0xFF, 0xFF, 0xFF, 0x5B]

/-- An identifier file of one byte, repeated. -/
def all8 (v : Byte) : Bytes8 := #v[v, v, v, v, v, v, v, v]

/-- The host's pins with a command and `rst = 0`. -/
def pinsOf (w r : Bool) (p : BitVec 64) : Pins := { rst := false, cmdWrite := w, cmdRead := r, patIn := p }

/-- The host's pins with `rst = 1`. -/
def rstPins : Pins := { rst := true, cmdWrite := false, cmdRead := true, patIn := 0 }

/-- An idle core after a complete READ: STATUS 0x0006. -/
def afterRead : State := { State.reset with done := true, valid := true, romcode := all8 0xAA }

/-! ### WellFormed -/

theorem test_wellFormed_refuses_wbyte_00 : (Instr.wbyte 0x00).wellFormed = false := by decide
theorem test_wellFormed_accepts_wbyte_33 : (Instr.wbyte 0x33).wellFormed = true := by decide

/-! ### Decoding: words from R91, R96, R101, R102, R203, R217 -/

theorem test_decode_nop : decode (.host 0x00000000000000000#66) = .ok .nop := by decide
theorem test_decode_read : decode (.host 0x10000000000000000#66) = .ok .read := by decide
theorem test_decode_read_ignores_patIn : decode (.host 0x1FFFFFFFFFFFFFFFF#66) = .ok .read := by decide
theorem test_decode_rewrite : decode (.host 0x25BFFFFFFB78FB3FE#66) = .ok (.rewrite 0x5BFFFFFFB78FB3FE) := by decide
theorem test_decode_reservedCmd : decode (.host 0x30000000000000000#66) = .ok .reservedCmd := by decide
theorem test_decode_reset : decode (.uop 0b00000000000) = .ok .reset := by decide
theorem test_decode_wbyte_33 : decode (.uop 0b00100110011) = .ok (.wbyte 0x33) := by decide
theorem test_decode_wbyte_D1 : decode (.uop 0b00111010001) = .ok (.wbyte 0xD1) := by decide
theorem test_decode_wbit_0 : decode (.uop 0b01000000000) = .ok (.wbit false) := by decide
theorem test_decode_wbit_1 : decode (.uop 0b01000000001) = .ok (.wbit true) := by decide
theorem test_decode_wbitp_1_3 : decode (.uop 0b01100001011) = .ok (.wbitp 1 3) := by decide
theorem test_decode_wbitp_7_0 : decode (.uop 0b01100111000) = .ok (.wbitp 7 0) := by decide
theorem test_decode_rbyte_romcode_4 : decode (.uop 0b10000000100) = .ok (.rbyte .romcode 4) := by decide
theorem test_decode_rbyte_oldcode_1 : decode (.uop 0b10000001001) = .ok (.rbyte .oldcode 1) := by decide
theorem test_decode_wait10 : decode (.uop 0b10100000000) = .ok .wait10 := by decide
theorem test_decode_owReadRom : decode (.bus8 0b00110011) = .ok .owReadRom := by decide
theorem test_decode_owWriteEnable : decode (.bus9 0b011010001) = .ok .owWriteEnable := by decide
theorem test_decode_owWriteDisable : decode (.bus9 0b111010001) = .ok .owWriteDisable := by decide
theorem test_decode_owWriteData : decode (.bus8 0b11010101) = .ok .owWriteData := by decide
theorem test_decode_romread : decode (.romread 0b1) = .ok (.romread .oldcode) := by decide
theorem test_decode_codec : decode (.codec 0b011) = .ok (.codec 3) := by decide
theorem test_decode_kind_110 : decode (.uop 0b11000000000) = .rejected .reservedKind := by decide
theorem test_decode_kind_111 : decode (.uop 0b11111111111) = .rejected .reservedKind := by decide
theorem test_decode_reset_arg : decode (.uop 0b00000000001) = .rejected .mustBeZero := by decide
theorem test_decode_other_command_byte : decode (.bus8 0x55) = .rejected .unknownBusCommand := by decide
theorem test_tableWord_wbyte : decodeTableWord 16 0x133 = some (.wbyte 0x33) := by decide
theorem test_tableWord_rewrite : decodeTableWord 72 0x20000000000000001 = some (.rewrite 1) := by decide

/-! ### Host commands (2.5) -/

/-- V50. -/
theorem test_nop_changes_nothing : nextSat (exec .nop afterRead) (fun t => t.status == 0x0006) = true := by decide

/-- V51. -/
theorem test_reservedCmd_changes_nothing :
    nextSat (exec .reservedCmd afterRead) (fun t => t.status == 0x0006) = true := by decide

/-- V52: from STATUS 0x00EE to 0x0B01, ROMCODE unchanged. -/
theorem test_read_clears_the_error : nextSat (exec .read { State.reset with
    op := .rewrite, done := true, valid := true, oldvalid := true, err := .verificationMismatch, romcode := all8 0xAA })
    (fun t => t.status == 0x0B01 && t.romcode == all8 0xAA) = true := by decide

/-- V54. -/
theorem test_rewrite_while_busy_is_dropped : nextSat (exec (.rewrite 0x5BFFFFFFB78FB3FE) (busyAt .read 4))
    (fun t => t.pat == all8 0 && t.status == 0x0B01 && t.upc == 4) = true := by decide

/-- V53: STATUS 0x0181, PAT = FE B3 8F B7 FF FF FF 5B. -/
theorem test_rewrite_latches_the_patterns : nextSat (exec (.rewrite 0x5BFFFFFFB78FB3FE) afterRead)
    (fun t => t.status == 0x0181 && t.pat == fixture && t.romcode == all8 0xAA) = true := by decide

/-! ### Micro-operations (2.1) -/

/-- V1. -/
theorem test_reset_presence : nextSat (exec .reset { busyAt .read 0 with ansReset := [.presence] })
    (fun t => t.upc == 1 && t.trace == [.reset .presence] && t.pres) = true := by decide

/-- V63: NoPresence at UPC 10 of a REWRITE. -/
theorem test_reset_noPresence : nextSat (exec .reset { busyAt .rewrite 10 with ansReset := [.noPresence] })
    (fun t => t.status == 0x20AA && t.upc == 0) = true := by decide

/-- V5. -/
theorem test_wbyte_D1 : nextSat (exec (.wbyte 0xD1) { busyAt .rewrite 11 with ansWrite := List.replicate 8 .ok })
    (fun t => t.upc == 12 && t.wire == [.w true, .w false, .w false, .w false, .w true, .w false, .w true, .w true]) =
    true := by decide

/-- V7. -/
theorem test_wbyte_fault : nextSat (exec (.wbyte 0xD1) { busyAt .rewrite 11 with ansWrite := [.ok, .ok, .fault] })
    (fun t => t.err == .transportTimingFault && t.wire == [.w true, .w false] &&
      t.trace == [.wbyte 0xD1 (some 2)]) = true := by decide

/-- V8. -/
theorem test_wbit_0 : nextSat (exec (.wbit false) { busyAt .rewrite 12 with ansWrite := [.ok] })
    (fun t => t.upc == 13 && t.wire == [.w false]) = true := by decide

/-- V67: a fault in `WBIT 0` at UPC 12. -/
theorem test_wbit_fault : nextSat (exec (.wbit false) { busyAt .rewrite 12 with ansWrite := [.fault] })
    (fun t => t.status == 0x30CA && t.wire == []) = true := by decide

/-- V9 and V10: PAT[7] = 0x5B. -/
theorem test_wbitp_7 :
    nextSat (exec (.wbitp 7 0) { busyAt .rewrite 128 with pat := fixture, ansWrite := [.ok] })
      (fun t => t.trace == [.wbit true none]) = true ∧
    nextSat (exec (.wbitp 7 7) { busyAt .rewrite 142 with pat := fixture, ansWrite := [.ok] })
      (fun t => t.trace == [.wbit false none] && t.upc == 143) = true := by decide

/-- V69: a fault in WBITP 1,3 at UPC 38. -/
theorem test_wbitp_fault : nextSat (exec (.wbitp 1 3) { busyAt .rewrite 38 with pat := fixture, ansWrite := [.fault] })
    (fun t => t.status == 0x60CA && t.trace == [.wbit false (some 0)]) = true := by decide

/-- V12, the last byte of a READ: completion with STATUS 0x0006. -/
theorem test_rbyte_last_of_read : nextSat (exec (.rbyte .romcode 7) { busyAt .read 9 with
    ansRead := [.bit false, .bit false, .bit true, .bit false, .bit false, .bit true, .bit false, .bit true] })
    (fun t => t.romcode[7] == 0xA4 && t.status == 0x0006 && t.upc == 0) = true := by decide

/-- V14: the register held 0xAA. -/
theorem test_rbyte_fault : nextSat (exec (.rbyte .romcode 2) { busyAt .read 4 with
    romcode := all8 0xAA, ansRead := [.bit false, .bit false, .bit false, .bit false, .fault] })
    (fun t => t.romcode == all8 0xAA && t.status == 0xB042 && t.trace == [.rbyteFault 4]) = true := by decide

/-- V16. -/
theorem test_wait10 : nextSat (exec .wait10 (busyAt .rewrite 13))
    (fun t => t.upc == 14 && t.trace == [.wait10] && t.wire == []) = true := by decide

/-! ### Frames and pseudo-instructions (2.2) -/

/-- R101 in step ReadOld: OLDCODE is filled, OLDVALID set, the core stands at UPC 10. -/
theorem test_owReadRom : nextSat (exec .owReadRom { busyAt .rewrite 1 with
    ansWrite := List.replicate 8 .ok, ansRead := List.replicate 64 (.bit true) })
    (fun t => t.oldcode == all8 0xFF && t.oldvalid && t.upc == 10 && t.wire.length == 72) = true := by decide +kernel

/-- R102: the ninth bit is 0. -/
theorem test_owWriteEnable : nextSat (exec .owWriteEnable { busyAt .rewrite 11 with ansWrite := List.replicate 9 .ok })
    (fun t => t.upc == 14 && t.wire == [.w true, .w false, .w false, .w false, .w true, .w false, .w true, .w true,
      .w false]) = true := by decide

/-- R102: the ninth bit is 1. -/
theorem test_owWriteDisable : nextSat (exec .owWriteDisable { busyAt .rewrite 145 with ansWrite := List.replicate 9 .ok })
    (fun t => t.upc == 148 && t.wire == [.w true, .w false, .w false, .w false, .w true, .w false, .w true, .w true,
      .w true]) = true := by decide

/-- R103 with the fixture (S4): the first byte goes out as 0,1,1,1,1,1,1,1, the last ends 1,0. -/
theorem test_owWriteData : nextSat (exec .owWriteData { busyAt .rewrite 15 with
    pat := fixture, ansWrite := List.replicate 72 .ok })
    (fun t => t.upc == 144 && (t.wire.drop 8).take 8 == [.w false, .w true, .w true, .w true, .w true, .w true,
      .w true, .w true] && t.wire.drop 70 == [.w true, .w false] && t.wire.length == 72) = true := by decide +kernel

/-- P1: the ten calls of a READ, its last byte 0xFF here. -/
theorem test_romread : nextSat (exec (.romread .romcode) { busyAt .read 0 with
    ansReset := [.presence], ansWrite := List.replicate 8 .ok, ansRead := List.replicate 64 (.bit true) })
    (fun t => t.romcode == all8 0xFF && t.status == 0x0006 && t.trace.length == 10) = true := by decide +kernel

/-- V60: no presence, one call. -/
theorem test_romread_noPresence : nextSat (exec (.romread .romcode) { busyAt .read 0 with ansReset := [.noPresence] })
    (fun t => t.status == 0xB022 && t.trace == [.reset .noPresence]) = true := by decide

/-- V24: 0xB3 goes out as 1,1,0,0,1,1,0,1, a wait after each bit. -/
theorem test_codec : nextSat (exec (.codec 1) { busyAt .rewrite 32 with
    pat := fixture, ansWrite := List.replicate 8 .ok })
    (fun t => t.upc == 48 && t.trace == [.wbit true none, .wait10, .wbit true none, .wait10, .wbit false none, .wait10,
      .wbit false none, .wait10, .wbit true none, .wait10, .wbit true none, .wait10, .wbit false none, .wait10,
      .wbit true none, .wait10]) = true := by decide

/-! ### MATCH, reset, level L -/

/-- V40 and V41. -/
theorem test_match :
    ({ busyAt .rewrite 157 with pat := fixture, romcode := #v[0x01, 0x4C, 0x70, 0x48, 0, 0, 0, 0xA4] }).advance.status =
      0x009E ∧
    ({ busyAt .rewrite 157 with pat := fixture, romcode := #v[0x01, 0x4C, 0x70, 0x48, 0, 0, 0, 0xA5] }).advance.status =
      0x00EE := by decide

/-- V42 and V43. -/
theorem test_match_traps :
    ({ busyAt .rewrite 157 with pat := fixture, romcode := fixture }).advance.status = 0x00EE ∧
    ({ busyAt .rewrite 157 with pat := all8 0, romcode := all8 0xFF }).advance.status = 0x009E := by decide

/-- V80 and V83: `rst` wins over a command. -/
theorem test_rst_wins : nextSat (step { afterRead with pins := [rstPins] })
    (fun t => t.status == 0 && t.romOut == 0 && t.busy == false) = true := by decide

/-- V81: `rst` inside the low interval of a write-0 slot. -/
theorem test_rst_releases_the_line : nextSat (tick Timing.defaults ⟨rstPins, false⟩
    { busyAt .rewrite 40 with oe := true, tcnt := 30 })
    (fun t => t.oe == false && t.status == 0 && t.err == .none) = true := by decide

/-- V81: `ow_oe` is still 1 in the `rst` tick and 0 in the next. -/
theorem test_owOe_in_the_rst_tick :
    ({ busyAt .rewrite 40 with oe := true, tcnt := 30 }).owOe Timing.defaults ⟨rstPins, false⟩ = true ∧
    nextSat (tick Timing.defaults ⟨rstPins, false⟩ { busyAt .rewrite 40 with oe := true, tcnt := 30 })
      (fun t => t.owOe Timing.defaults ⟨rstPins, false⟩ == false) = true := by decide

/-- L3: the line stuck low: the idle check fails in the first tick of a READ. -/
theorem test_tick_idle_check : nextSat (tick Timing.defaults ⟨pinsOf false false 0, false⟩ (busyAt .read 0))
    (fun t => t.status == 0xB042 && t.oe == false && t.wire == []) = true := by decide

/-- L3: the line cannot be pulled low: the drive check of the RESET fails. -/
theorem test_tick_drive_check : nextSat (tick Timing.defaults ⟨pinsOf false false 0, true⟩
    { busyAt .read 0 with tcnt := 480, oe := true }) (fun t => t.status == 0xB042 && t.oe == false) = true := by decide

/-- L3: no device: the RESET ends in its 960th tick, STATUS 0xB022 after it. -/
theorem test_tick_no_device : nextSat (tick Timing.defaults ⟨pinsOf false false 0, true⟩
    { busyAt .read 0 with tcnt := 959 }) (fun t => t.status == 0xB022 && t.wire == [.reset]) = true := by decide

/-- L1: the data sample of a read slot in tick 15 goes to its bit of SR. -/
theorem test_tick_data_sample : nextSat (tick Timing.defaults ⟨pinsOf false false 0, true⟩
    { busyAt .read 2 with tcnt := 15, biti := 3 }) (fun t => t.sr == 0x08 && t.tcnt == 16) = true := by decide

/-- L1: the presence sample in tick 550. -/
theorem test_tick_presence_sample : nextSat (tick Timing.defaults ⟨pinsOf false false 0, false⟩
    { busyAt .read 0 with tcnt := 550 }) (fun t => t.pres && t.tcnt == 551) = true := by decide

/-- R181, R182. -/
theorem test_operation_lengths :
    instrTicks Timing.defaults (all8 0) .reset = 960 ∧ instrTicks Timing.defaults (all8 0) (.wbyte 0xD1) = 560 ∧
    instrTicks Timing.defaults (all8 0) (.rbyte .romcode 0) = 560 ∧
    instrTicks Timing.defaults (all8 0) .wait10 = 10000 := by decide

/-- S4, V30: the string "11111110". -/
theorem test_string_convention :
    strVal #v[true, true, true, true, true, true, true, false] = 0xFE ∧ patternOf 0x01 = 0xFE ∧ idOf 0x5B = 0xA4 := by
  decide

/-! ### Witnesses -/

theorem witness_DecodedWordsAreEncodings :
    (∀ c ∈ [CodeWord.uop 0x133, .bus8 0xD5, .bus9 0x1D1, .romread 1, .codec 7], ∀ w, c ≠ .host w) ∧
    decode (.uop 0x133) = .ok (.wbyte 0x33) ∧ decode (.bus8 0xD5) = .ok .owWriteData ∧
    decode (.bus9 0x1D1) = .ok .owWriteDisable ∧ decode (.romread 1) = .ok (.romread .oldcode) ∧
    decode (.codec 7) = .ok (.codec 7) := by
  refine ⟨by simp, ?_⟩
  decide

theorem witness_ReservedWordsRefused :
    (0b11000000000#11).extractLsb' 8 3 = 0b110#3 ∧ (0b11111111111#11).extractLsb' 8 3 = 0b111#3 ∧
    ((0b00010000000#11).extractLsb' 8 3 = 0b000#3 ∧ (0b00010000000#11).extractLsb' 0 8 ≠ 0#8) ∧
    ((0b10100000001#11).extractLsb' 8 3 = 0b101#3 ∧ (0b10100000001#11).extractLsb' 0 8 ≠ 0#8) ∧
    ((0b01000000010#11).extractLsb' 8 3 = 0b010#3 ∧ (0b01000000010#11).extractLsb' 1 7 ≠ 0#7) ∧
    ((0b01101000000#11).extractLsb' 8 3 = 0b011#3 ∧ (0b01101000000#11).extractLsb' 6 2 ≠ 0#2) ∧
    ((0b10000010000#11).extractLsb' 8 3 = 0b100#3 ∧ (0b10000010000#11).extractLsb' 4 4 ≠ 0#4) ∧
    (({ State.reset with slot := some (.uop 0x600) }).pinsNow.rst = false ∧
      decode (.uop 0x600) = .rejected .reservedKind) := by decide

theorem witness_CommandWhileBusyIsDropped :
    (busyAt .read 4).busy = true ∧ (busyAt .read 4).slot = none ∧ (pinsOf true false 7).rst = false ∧
      (pinsOf false true 0).rst = false := by decide

theorem witness_Acceptance : State.reset.busy = false ∧ afterRead.busy = false := by decide

theorem witness_StepRunsTheDecodedInstruction :
    (∃ c i, (busyAt .read 9).pinsNow.rst = false ∧ (busyAt .read 9).nextWord = some c ∧ decode c = .ok i) ∧
    (∃ c i, ({ State.reset with slot := some (.bus8 0x33) }).pinsNow.rst = false ∧
      ({ State.reset with slot := some (.bus8 0x33) }).nextWord = some c ∧ decode c = .ok i) ∧
    (∃ c i, ({ State.reset with pins := [pinsOf false true 0] }).pinsNow.rst = false ∧
      ({ State.reset with pins := [pinsOf false true 0] }).nextWord = some c ∧ decode c = .ok i) ∧
    ((busyAt .rewrite 157).slot = none ∧ (busyAt .rewrite 157).busy = true) ∧
    (State.reset.slot = none ∧ State.reset.busy = false ∧ State.reset.pins = []) :=
  ⟨⟨.uop 0b10000000111, .rbyte .romcode 7, by decide, by decide, by decide⟩,
   ⟨.bus8 0x33, .owReadRom, by decide, by decide, by decide⟩,
   ⟨.host 0x10000000000000000, .read, by decide, by decide, by decide⟩, by decide, by decide⟩

theorem witness_PlacedWordRunsNext :
    tableWord 72 0x10000000000000000 = some (.host 0x10000000000000000) ∧ tableWord 16 0x0D1 = some (.bus9 0x0D1) ∧
    decodeTableWord 72 0x10000000000000000 = some .read ∧ decodeTableWord 16 0x0D1 = some .owWriteEnable ∧
    decodeTableWord 8 1 = some (.romread .oldcode) ∧ decodeTableWord 8 7 = some (.codec 7) ∧
    ∀ x, CodeWord.bus9 0x0D1 ≠ .host x :=
  ⟨by decide, by decide, by decide, by decide, by decide, by decide, by simp⟩

theorem witness_RstClearsEveryRegister :
    ({ busyAt .rewrite 157 with pins := [rstPins] }).pinsNow.rst = true ∧ rstPins.rst = true := by decide

theorem witness_AdvanceMovesOnOrCompletes :
    ((busyAt .read 8).upc.toNat + 1 ≠ (if (busyAt .read 8).op = .read then 10 else 158)) ∧
    ((busyAt .rewrite 9).upc.toNat + 1 ≠ (if (busyAt .rewrite 9).op = .read then 10 else 158)) ∧
    ((busyAt .read 9).op = .read ∧ (busyAt .read 9).upc.toNat + 1 = 10) ∧
    ((busyAt .rewrite 157).op = .rewrite ∧ (busyAt .rewrite 157).upc.toNat + 1 = 158) ∧
    (∀ k : Fin 8, (all8 0xFF)[k] = ~~~(all8 0)[k]) ∧ (∃ k : Fin 8, (all8 0)[k] ≠ ~~~(all8 0)[k]) := by decide

theorem witness_ResetFollowsItsAnswer :
    ({ busyAt .read 0 with ansReset := [.presence] }).resetAnswer = .presence ∧
    ({ busyAt .read 0 with ansReset := [.noPresence] }).resetAnswer = .noPresence ∧
    ({ busyAt .read 0 with ansReset := [.fault] }).resetAnswer = .fault := by decide

theorem witness_WbitSendsOneSlot :
    ({ busyAt .rewrite 12 with ansWrite := [.ok] }).writeAnswer false = .ok ∧
    ({ busyAt .rewrite 146 with ansWrite := [.fault] }).writeAnswer true = .fault := by decide

theorem witness_WbitpSendsThePatternBit :
    ({ busyAt .rewrite 16 with pat := fixture, ansWrite := [.ok] }).writeAnswer (fixture[0].getLsbD 0) = .ok ∧
    ({ busyAt .rewrite 142 with pat := fixture, ansWrite := [.fault] }).writeAnswer (fixture[7].getLsbD 7) = .fault := by
  decide

theorem witness_WbyteSendsEightBits : ∃ s : State, s.ansWrite = List.replicate 8 .ok ++ [.fault] :=
  ⟨{ busyAt .read 1 with ansWrite := List.replicate 8 .ok ++ [.fault] }, rfl⟩

theorem witness_WbyteFaultStopsTheByte :
    (∃ s : State, s.ansWrite = List.replicate (0 : Fin 8).val .ok ++ .fault :: []) ∧
    (∃ s : State, s.ansWrite = List.replicate (7 : Fin 8).val .ok ++ .fault :: []) :=
  ⟨⟨{ busyAt .read 1 with ansWrite := [.fault] }, rfl⟩,
   ⟨{ busyAt .read 1 with ansWrite := List.replicate 7 .ok ++ [.fault] }, rfl⟩⟩

theorem witness_RbyteAssemblesEightBits : ∃ s : State, (List.replicate 8 true).length = 8 ∧
    s.ansRead = (List.replicate 8 true).map ReadAnswer.bit ++ [] :=
  ⟨{ busyAt .read 2 with ansRead := List.replicate 8 (.bit true) }, rfl, rfl⟩

theorem witness_RbyteFaultDropsThePartialByte :
    (∃ s : State, ([] : List Bool).length < 8 ∧ s.ansRead = ([] : List Bool).map ReadAnswer.bit ++ .fault :: []) ∧
    (∃ s : State, (List.replicate 7 true).length < 8 ∧
      s.ansRead = (List.replicate 7 true).map ReadAnswer.bit ++ .fault :: []) :=
  ⟨⟨{ busyAt .read 2 with ansRead := [.fault] }, by decide, rfl⟩,
   ⟨{ busyAt .read 2 with ansRead := List.replicate 7 (.bit true) ++ [.fault] }, by decide, rfl⟩⟩

theorem witness_MicroOperationFrame : ∀ i ∈ [Instr.reset, .wbyte 0x33, .wbit true, .wbitp 7 7, .rbyte .oldcode 7, .wait10],
    (∃ w, decodeUop w = .ok i) ∧ ∃ t, exec i (busyAt .rewrite 9) = .next t := by
  intro i hi
  refine ⟨?_, ?_⟩
  · simp only [List.mem_cons, List.not_mem_nil, or_false] at hi
    obtain rfl | rfl | rfl | rfl | rfl | rfl := hi
    · exact ⟨0b00000000000, by decide⟩
    · exact ⟨0b00100110011, by decide⟩
    · exact ⟨0b01000000001, by decide⟩
    · exact ⟨0b01100111111, by decide⟩
    · exact ⟨0b10000001111, by decide⟩
    · exact ⟨0b10100000000, by decide⟩
  · simp only [List.mem_cons, List.not_mem_nil, or_false] at hi
    obtain rfl | rfl | rfl | rfl | rfl | rfl := hi <;> exact ⟨_, rfl⟩

theorem witness_WriteControlFramesSendNineBits : ∃ s : State, s.ansWrite = List.replicate 9 .ok ++ [] ∧
    s.upc.toNat + 3 < progLen s.op :=
  ⟨{ busyAt .rewrite 145 with ansWrite := List.replicate 9 .ok }, rfl, by decide⟩

theorem witness_WriteDataFrameSendsThePatterns : ∃ s : State, s.ansWrite = List.replicate 72 .ok ++ [] ∧
    s.upc.toNat + 129 < progLen s.op :=
  ⟨{ busyAt .rewrite 15 with ansWrite := List.replicate 72 .ok }, rfl, by decide⟩

/-- The two boundary values of `upc + 9 ≤ progLen`, and both destinations. -/
theorem witness_ReadRomFrameReadsEightBytes :
    (∃ s : State, (List.replicate 64 true).length = 64 ∧ s.ansWrite = List.replicate 8 .ok ++ [] ∧
      s.ansRead = (List.replicate 64 true).map ReadAnswer.bit ++ [] ∧ s.frameDest = .oldcode ∧
      s.upc.toNat + 9 < progLen s.op) ∧
    (∃ s : State, (List.replicate 64 true).length = 64 ∧ s.ansWrite = List.replicate 8 .ok ++ [] ∧
      s.ansRead = (List.replicate 64 true).map ReadAnswer.bit ++ [] ∧ s.frameDest = .romcode ∧
      s.upc.toNat + 9 = progLen s.op) :=
  ⟨⟨{ busyAt .rewrite 1 with ansWrite := List.replicate 8 .ok, ansRead := List.replicate 64 (.bit true) },
     by decide, rfl, by decide, by decide, by decide⟩,
   ⟨{ busyAt .rewrite 149 with ansWrite := List.replicate 8 .ok, ansRead := List.replicate 64 (.bit true) },
     by decide, rfl, by decide, by decide, by decide⟩⟩

theorem witness_RomreadReadsEightBytes :
    (∃ s : State, (List.replicate 64 true).length = 64 ∧ s.ansReset = .presence :: [] ∧
      s.ansWrite = List.replicate 8 .ok ++ [] ∧ s.ansRead = (List.replicate 64 true).map ReadAnswer.bit ++ [] ∧
      s.upc.toNat + 10 < progLen s.op) ∧
    (∃ s : State, (List.replicate 64 true).length = 64 ∧ s.ansReset = .presence :: [] ∧
      s.ansWrite = List.replicate 8 .ok ++ [] ∧ s.ansRead = (List.replicate 64 true).map ReadAnswer.bit ++ [] ∧
      s.upc.toNat + 10 = progLen s.op) :=
  ⟨⟨{ busyAt .rewrite 0 with
      ansReset := [.presence], ansWrite := List.replicate 8 .ok, ansRead := List.replicate 64 (.bit true) },
     by decide, rfl, rfl, by decide, by decide⟩,
   ⟨{ busyAt .read 0 with
      ansReset := [.presence], ansWrite := List.replicate 8 .ok, ansRead := List.replicate 64 (.bit true) },
     by decide, rfl, rfl, by decide, by decide⟩⟩

theorem witness_RomreadEndsWithoutPresence :
    ({ busyAt .read 0 with ansReset := [.noPresence] }).resetAnswer ≠ .presence ∧
    ({ busyAt .read 0 with ansReset := [.fault] }).resetAnswer ≠ .presence := by decide

theorem witness_CodecSpellsTheReversedString : ∃ s : State, s.ansWrite = List.replicate 8 .ok ++ [] ∧
    s.upc.toNat + 16 < progLen s.op ∧
    s.pat[(1 : Fin 8)] = strVal #v[true, false, true, true, false, false, true, true] :=
  ⟨{ busyAt .rewrite 128 with pat := fixture, ansWrite := List.replicate 8 .ok }, rfl, by decide, by decide⟩

theorem witness_CodecFaultEndsTheCommand :
    (∃ s : State, s.ansWrite = List.replicate (0 : Fin 8).val .ok ++ .fault :: [] ∧ s.upc.toNat + 16 < progLen s.op) ∧
    (∃ s : State, s.ansWrite = List.replicate (7 : Fin 8).val .ok ++ .fault :: [] ∧ s.upc.toNat + 16 < progLen s.op) :=
  ⟨⟨{ busyAt .rewrite 16 with ansWrite := [.fault] }, rfl, by decide⟩,
   ⟨{ busyAt .rewrite 128 with ansWrite := List.replicate 7 .ok ++ [.fault] }, rfl, by decide⟩⟩

theorem witness_FrameAndPseudoFrame :
    (∃ t, exec .owReadRom (busyAt .rewrite 1) = .next t) ∧ (∃ t, exec .owWriteEnable (busyAt .rewrite 11) = .next t) ∧
    (∃ t, exec .owWriteDisable (busyAt .rewrite 145) = .next t) ∧ (∃ t, exec .owWriteData (busyAt .rewrite 15) = .next t) ∧
    (∃ t, exec (.romread .romcode) (busyAt .read 0) = .next t) ∧ (∃ t, exec (.codec 7) (busyAt .rewrite 128) = .next t) ∧
    (busyAt .rewrite 1).frameDest = .oldcode ∧ (busyAt .read 1).frameDest = .romcode :=
  ⟨⟨_, rfl⟩, ⟨_, rfl⟩, ⟨_, rfl⟩, ⟨_, rfl⟩, ⟨_, rfl⟩, ⟨_, rfl⟩, by decide, by decide⟩

/-- Every range of R33 at both its ends. -/
theorem witness_StepFollowsItsTable :
    ((busyAt .read 0).stepCode = .readRom ∧ (busyAt .read 9).stepCode = .readRom) ∧
    (∀ x ∈ [(0, StepCode.readOld), (9, .readOld), (10, .enterWriteMode), (11, .enterWriteMode), (12, .armWrite),
        (13, .armWrite), (14, .resync), (15, .sendWriteCommand), (16, .transmitIdentifier), (143, .transmitIdentifier),
        (144, .exitWriteSetup), (145, .disableWrite), (146, .disarmWrite), (147, .disarmWrite), (148, .verifyNew),
        (157, .verifyNew)], (busyAt .rewrite x.1).stepCode = x.2) ∧ State.reset.stepCode = .idle := by decide

/-- Register numbers at the ends of their ranges (R41). -/
theorem witness_RegisterNumbersAndPorts :
    afterRead.regView 0 = .status 0x0006 ∧ afterRead.regView 1 = .byte 0xAA ∧ afterRead.regView 8 = .byte 0xAA ∧
    afterRead.regView 9 = .byte 0 ∧ afterRead.regView 16 = .byte 0 ∧ afterRead.regView 17 = .notReadable ∧
    afterRead.regView 24 = .notReadable ∧ afterRead.regView 25 = .noSuchRegister := by decide

theorem witness_LastByteDecidesMatch : ∃ s : State, s.op = .rewrite ∧ s.upc = 157 ∧
    (List.replicate 8 true).length = 8 ∧ s.ansRead = (List.replicate 8 true).map ReadAnswer.bit ++ [] :=
  ⟨{ busyAt .rewrite 157 with ansRead := List.replicate 8 (.bit true) }, rfl, rfl, rfl, by decide⟩

/-- The two tick clauses: an idle core with a command at the pins, and a running one. -/
theorem witness_TickRunsTheDecodedInstruction :
    ((pinsOf false true 0).rst = false ∧ State.reset.busy = false ∧
      decode (.host (BitVec.ofBool (pinsOf false true 0).cmdWrite ++ BitVec.ofBool (pinsOf false true 0).cmdRead ++
        (pinsOf false true 0).patIn)) = .ok .read) ∧
    ((busyAt .rewrite 157).busy = true ∧
      (progWords (busyAt .rewrite 157).op)[(busyAt .rewrite 157).upc.toNat]? = some 0b10000000111 ∧
      decode (.uop 0b10000000111) = .ok (.rbyte .romcode 7) ∧
      lineOp (.rbyte .romcode 7) (busyAt .rewrite 157) = some .read) :=
  ⟨by decide, by decide +kernel⟩

/-- A running command that is legal, at both ends of both programs. -/
theorem witness_Inv : (busyAt .read 0).Inv ∧ (busyAt .read 9).Inv ∧ (busyAt .rewrite 0).Inv ∧ (busyAt .rewrite 157).Inv ∧
    State.reset.Inv ∧ afterRead.Inv :=
  ⟨⟨⟨by decide, by decide, by decide⟩, by decide, rfl⟩, ⟨⟨by decide, by decide, by decide⟩, by decide, rfl⟩,
   ⟨⟨by decide, by decide, by decide⟩, by decide, rfl⟩, ⟨⟨by decide, by decide, by decide⟩, by decide, rfl⟩,
   ⟨⟨by decide, by decide, by decide⟩, by decide, rfl⟩, ⟨⟨by decide, by decide, by decide⟩, by decide, rfl⟩⟩

theorem witness_StepKeepsTheInvariant :
    (busyAt .rewrite 13).Inv ∧ ∃ t, step (busyAt .rewrite 13) = .next t :=
  ⟨⟨⟨by decide, by decide, by decide⟩, by decide, rfl⟩, ⟨_, rfl⟩⟩

theorem witness_EveryCommandEnds : (busyAt .rewrite 0).Inv ∧ (busyAt .rewrite 0).busy = true :=
  ⟨⟨⟨by decide, by decide, by decide⟩, by decide, rfl⟩, rfl⟩

/-- The two commands given to an idle core. -/
theorem witness_CommandGiven :
    ({ State.reset with pins := [pinsOf false true 0] }).CommandGiven (pinsOf false true 0) .read ∧
    ({ State.reset with pins := [pinsOf true false 7] }).CommandGiven (pinsOf true false 7) .rewrite :=
  ⟨⟨⟨⟨by decide, by decide, by decide⟩, by decide, rfl⟩, rfl, rfl, rfl, rfl, rfl⟩,
   ⟨⟨⟨by decide, by decide, by decide⟩, by decide, rfl⟩, rfl, rfl, rfl, rfl, rfl⟩⟩

theorem witness_CompleteReadResult : ∃ s : State, s.CommandGiven (pinsOf false true 0) .read ∧
    (List.replicate 64 true).length = 64 ∧ s.ansReset = .presence :: [] ∧ s.ansWrite = List.replicate 8 .ok ++ [] ∧
    s.ansRead = (List.replicate 64 true).map ReadAnswer.bit ++ [] :=
  ⟨{ State.reset with
      pins := [pinsOf false true 0], ansReset := [.presence], ansWrite := List.replicate 8 .ok,
      ansRead := List.replicate 64 (.bit true) },
   ⟨⟨⟨by decide, by decide, by decide⟩, by decide, rfl⟩, rfl, rfl, rfl, rfl, rfl⟩, by decide, rfl, rfl, by decide⟩

theorem witness_CompleteRewriteResult : ∃ s : State, s.CommandGiven (pinsOf true false 0) .rewrite ∧
    (List.replicate 64 false).length = 64 ∧ (List.replicate 64 true).length = 64 ∧
    s.ansReset = List.replicate 5 .presence ++ [] ∧ s.ansWrite = List.replicate 106 .ok ++ [] ∧
    s.ansRead = (List.replicate 64 false ++ List.replicate 64 true).map ReadAnswer.bit ++ [] :=
  ⟨{ State.reset with
      pins := [pinsOf true false 0], ansReset := List.replicate 5 .presence, ansWrite := List.replicate 106 .ok,
      ansRead := (List.replicate 64 false ++ List.replicate 64 true).map ReadAnswer.bit },
   ⟨⟨⟨by decide, by decide, by decide⟩, by decide, rfl⟩, rfl, rfl, rfl, rfl, rfl⟩, by decide, by decide, by simp,
   by simp, by simp⟩

/-- Two idle cores that differ in registers and histories, the same command and the same answers. -/
theorem witness_CommandIgnoresEarlierRegisters :
    ({ State.reset with pins := [pinsOf true false 7] }).CommandGiven (pinsOf true false 7) .rewrite ∧
    ({ afterRead with
        pins := [pinsOf true false 7], pat := fixture, sr := 0x12, trace := [.wait10] }).CommandGiven
      (pinsOf true false 7) .rewrite ∧
    State.reset.ansReset = afterRead.ansReset ∧ State.reset.ansWrite = afterRead.ansWrite ∧
    State.reset.ansRead = afterRead.ansRead ∧ State.reset.asks = afterRead.asks :=
  ⟨⟨⟨⟨by decide, by decide, by decide⟩, by decide, rfl⟩, rfl, rfl, rfl, rfl, rfl⟩,
   ⟨⟨⟨by decide, by decide, by decide⟩, by decide, rfl⟩, rfl, rfl, rfl, rfl, rfl⟩, rfl, rfl, rfl, rfl⟩

/-- P2's slave. -/
theorem witness_RewriteOnReferenceSlaveMatches : ∃ d : Slave, afterRead.busy = false ∧ d.present = true ∧
    d.writable = true ∧ d.rom = #v[0x01, 0xBE, 0x40, 0x11, 0x5A, 0x36, 0x00, 0xE1] :=
  ⟨{ rom := #v[0x01, 0xBE, 0x40, 0x11, 0x5A, 0x36, 0x00, 0xE1], writable := true, present := true, armed := false,
     mode := .idle, shift := 0, count := 0 }, rfl, rfl, rfl, rfl⟩

/-- Each of the six RESETs, without presence. -/
theorem witness_NoPresenceEndsTheCommand :
    (∀ x ∈ [(Op.read, (0 : BitVec 8)), (.rewrite, 0), (.rewrite, 10), (.rewrite, 14), (.rewrite, 144), (.rewrite, 148)],
      ({ busyAt x.1 x.2 with ansReset := [.noPresence] }).resetAnswer = .noPresence ∧ (busyAt x.1 x.2).LegalUpc ∧
      (busyAt x.1 x.2).pins = [] ∧ (busyAt x.1 x.2).busy = true) ∧
    ({ busyAt .read 0 with ansReset := [.noPresence] }).Inv ∧ ({ busyAt .rewrite 0 with ansReset := [.noPresence] }).Inv ∧
    ({ busyAt .rewrite 10 with ansReset := [.noPresence] }).Inv ∧
    ({ busyAt .rewrite 14 with ansReset := [.noPresence] }).Inv ∧
    ({ busyAt .rewrite 144 with ansReset := [.noPresence] }).Inv ∧
    ({ busyAt .rewrite 148 with ansReset := [.noPresence] }).Inv :=
  ⟨by decide, ⟨⟨by decide, by decide, by decide⟩, by decide, rfl⟩, ⟨⟨by decide, by decide, by decide⟩, by decide, rfl⟩,
   ⟨⟨by decide, by decide, by decide⟩, by decide, rfl⟩, ⟨⟨by decide, by decide, by decide⟩, by decide, rfl⟩,
   ⟨⟨by decide, by decide, by decide⟩, by decide, rfl⟩, ⟨⟨by decide, by decide, by decide⟩, by decide, rfl⟩⟩

/-- The default parameters are within the constraints (R11). -/
theorem witness_Timing : Timing.defaults.Wf := by decide

theorem witness_LevelLRefinesLevelT :
    Timing.defaults.Wf ∧ (∀ n : Nat, ((fun _ => ⟨pinsOf false false 0, true⟩ : Nat → TickIn) n).pins.rst = false) ∧
    (busyAt .rewrite 2).AtBoundary ∧ (busyAt .rewrite 2).busy = true ∧
    (busyAt .rewrite 2).programInstr = some (.rbyte .oldcode 0) :=
  ⟨by decide, fun _ => rfl, by decide, rfl, by decide⟩

/-- A state in the last tick of the last read slot of a REWRITE, legal at level L, and its next state. -/
theorem witness_TickKeepsTheInvariant :
    Timing.defaults.Wf ∧ ({ busyAt .rewrite 157 with tcnt := 69, biti := 7 }).TickInv Timing.defaults ∧
    ∃ t, tick Timing.defaults ⟨pinsOf false false 0, true⟩ { busyAt .rewrite 157 with tcnt := 69, biti := 7 } = .next t :=
  ⟨by decide, ⟨⟨by decide, by decide, by decide⟩, by decide, by decide⟩, ⟨_, rfl⟩⟩

/-- The checked operations, in their first tick. -/
theorem witness_IdleCheckInTheFirstTick :
    Timing.defaults.Wf ∧ (pinsOf false false 0).rst = false ∧
    (∀ x ∈ [((0 : BitVec 8), Instr.reset, LineOp.reset), (11, .wbyte 0xD1, .write true), (2, .rbyte .oldcode 0, .read),
        (146, .wbit true, .write true), (142, .wbitp 7 7, .write false)],
      (busyAt .rewrite x.1).busy = true ∧ (busyAt .rewrite x.1).programInstr = some x.2.1 ∧
      lineOp x.2.1 (busyAt .rewrite x.1) = some x.2.2 ∧ x.2.2 ≠ .wait ∧ (busyAt .rewrite x.1).tcnt = 0) := by
  refine ⟨by decide, rfl, ?_⟩
  decide +kernel

/-- The first released tick: 480 of a RESET, 60 of a write-0 slot, 6 of a read slot. -/
theorem witness_DriveCheckInTheFirstReleasedTick :
    Timing.defaults.Wf ∧ (pinsOf false false 0).rst = false ∧
    (∀ x ∈ [((0 : BitVec 8), (480 : BitVec 14), Instr.reset, LineOp.reset), (12, 60, .wbit false, .write false),
        (2, 6, .rbyte .oldcode 0, .read)],
      ({ busyAt .rewrite x.1 with tcnt := x.2.1 }).programInstr = some x.2.2.1 ∧
      lineOp x.2.2.1 (busyAt .rewrite x.1) = some x.2.2.2 ∧ x.2.2.2 ≠ .wait ∧
      x.2.1.toNat = x.2.2.2.low Timing.defaults) := by decide

/-- Before, at and after the release of a RESET, and a WAIT10; a legal state whose tick is no `rst`; a `rst`. -/
theorem witness_DriveFollowsTheTimeline :
    Timing.defaults.Wf ∧
    (∀ n ∈ [0, 479, 480, 959],
      ({ busyAt .rewrite 0 with tcnt := BitVec.ofNat 14 n }).programInstr = some .reset ∧
      lineOp .reset (busyAt .rewrite 0) = some .reset ∧ (BitVec.ofNat 14 n).toNat < LineOp.reset.len Timing.defaults) ∧
    ((busyAt .rewrite 13).programInstr = some .wait10 ∧ lineOp .wait10 (busyAt .rewrite 13) = some .wait ∧
      (busyAt .rewrite 13).tcnt.toNat < LineOp.wait.len Timing.defaults) ∧
    (State.reset.busy = false ∧ (busyAt .rewrite 13).TickInv Timing.defaults ∧ rstPins.rst = true) :=
  ⟨by decide, by decide +kernel, by decide, rfl, ⟨⟨by decide, by decide, by decide⟩, by decide, by decide⟩, rfl⟩

/-- The tick in which a READ completes leaves the core idle. -/
theorem witness_IdleCoreReleasesTheLine :
    ({ busyAt .read 9 with tcnt := 69, biti := 7 }).TickInv Timing.defaults ∧
    (∃ t, tick Timing.defaults ⟨pinsOf false false 0, true⟩ { busyAt .read 9 with tcnt := 69, biti := 7 } = .next t ∧
      t.busy = false) ∧ State.reset.busy = false :=
  ⟨⟨⟨by decide, by decide, by decide⟩, by decide, by decide⟩, ⟨_, rfl, rfl⟩, rfl⟩

theorem witness_EveryCommandEndsInItsTicks :
    Timing.defaults.Wf ∧ (busyAt .rewrite 0).TickInv Timing.defaults ∧ (busyAt .rewrite 0).busy = true :=
  ⟨by decide, ⟨⟨by decide, by decide, by decide⟩, by decide, by decide⟩, rfl⟩

/-- A REWRITE in the first tick after its acceptance. -/
theorem witness_CompleteCommandTakesItsTicks :
    Timing.defaults.Wf ∧ (busyAt .rewrite 0).Legal ∧ (busyAt .rewrite 0).AtBoundary ∧ (busyAt .rewrite 0).busy = true ∧
    (busyAt .rewrite 0).upc = 0 ∧
    (∀ n : Nat, ((fun _ => ⟨pinsOf false false 0, true⟩ : Nat → TickIn) n).pins.rst = false) :=
  ⟨by decide, ⟨by decide, by decide, by decide⟩, by decide, rfl, rfl, fun _ => rfl⟩

/-- The first WAIT10 of a REWRITE. -/
theorem witness_Wait10NeverLooksAtTheLine : (busyAt .rewrite 13).busy = true ∧
    (busyAt .rewrite 13).programInstr = some .wait10 ∧ (pinsOf true true 0).rst = false := by decide

theorem witness_AbortRecordsStepAndCause : (busyAt .rewrite 14).slot = none := rfl

end Sys2Proof.Tests
end

section
/-! ### Which instructions are micro-operations, and where RBYTE OLDCODE,7 stands in the programs -/

namespace Sys2Proof.Machine

/-- The six micro-operations of layer U (R93, R96). -/
inductive IsUop : Instr → Prop
  | reset : IsUop .reset
  | wbyte (v : Byte) : IsUop (.wbyte v)
  | wbit (b : Bool) : IsUop (.wbit b)
  | wbitp (k i : Fin 8) : IsUop (.wbitp k i)
  | rbyte (d : Dest) (k : Fin 8) : IsUop (.rbyte d k)
  | wait10 : IsUop .wait10

/-- A UOP word that decodes is a micro-operation (R96, R97). -/
theorem isUop_of_decodeUop {w : BitVec 11} {i : Instr} (h : decodeUop w = .ok i) : IsUop i := by
  simp only [decodeUop] at h
  split_ifs at h <;> cases h <;> constructor

/-- A micro-operation performs a line operation (R153, R170). -/
theorem IsUop.lineOp_isSome {i : Instr} (h : IsUop i) (s : State) : ∃ o, lineOp i s = some o := by
  cases h <;> exact ⟨_, rfl⟩

/-- What `prog(OP)[UPC]` holds, in terms of its word (R120). -/
theorem programInstr_eq_some {s : State} {i : Instr} (h : s.programInstr = some i) :
    ∃ w, s.programWord = some w ∧ decodeUop w = .ok i := by
  obtain ⟨w, hw, hi⟩ := Option.bind_eq_some_iff.mp h
  refine ⟨w, hw, ?_⟩
  cases hd : decodeUop w with
  | ok j => simp_all [Decoded.toOption]
  | rejected r => simp [hd, Decoded.toOption] at hi

theorem isUop_of_programInstr {s : State} {i : Instr} (h : s.programInstr = some i) : IsUop i := by
  obtain ⟨w, -, hd⟩ := programInstr_eq_some h
  exact isUop_of_decodeUop hd

/-- `prog(OP)[UPC]` is a matter of OP and UPC only (R120). -/
theorem programInstr_congr {s t : State} (ho : s.op = t.op) (hu : s.upc = t.upc) :
    s.programInstr = t.programInstr := by
  simp only [State.programInstr, State.programWord, ho, hu]

/-- RBYTE OLDCODE,7 is in no READ program, and stands at `UPC` 9 of the REWRITE program only (R203, R217). -/
theorem programWord_oldcode7 (o : Op) : ∀ n : Fin (progLen o),
    (progWords o)[n.val]?.bind (fun w => (decodeUop w).toOption) = some (.rbyte .oldcode 7) ↔
      o = .rewrite ∧ n.val = 9 := by
  cases o <;> decide +kernel

theorem programInstr_oldcode7 {s : State} {i : Instr} (hu : s.upc.toNat < progLen s.op)
    (hi : s.programInstr = some i) : i = .rbyte .oldcode 7 ↔ s.op = .rewrite ∧ s.upc.toNat = 9 := by
  rw [← programWord_oldcode7 s.op ⟨s.upc.toNat, hu⟩]
  change _ ↔ s.programInstr = _
  simp [hi]

theorem progLen_le (o : Op) : progLen o ≤ 158 := by
  cases o <;> decide

end Sys2Proof.Machine
end

section
/-! ### STEP (R33) -/

namespace Sys2Proof.Machine

/-- The steps of a REWRITE by the number `UPC` holds (R33). -/
theorem runningStep_rewrite (u : BitVec 8) : runningStep .rewrite u =
    if u.toNat ≤ 9 then .readOld else if u.toNat ≤ 11 then .enterWriteMode else if u.toNat ≤ 13 then .armWrite
    else if u.toNat = 14 then .resync else if u.toNat = 15 then .sendWriteCommand
    else if u.toNat ≤ 143 then .transmitIdentifier else if u.toNat = 144 then .exitWriteSetup
    else if u.toNat = 145 then .disableWrite else if u.toNat ≤ 147 then .disarmWrite
    else if u.toNat ≤ 157 then .verifyNew else Config.strayStep .rewrite u := by
  simp [runningStep, BitVec.le_def, ← BitVec.toNat_inj]

/-- The step of a READ by the number `UPC` holds (R33). -/
theorem runningStep_read (u : BitVec 8) :
    runningStep .read u = if u.toNat ≤ 9 then .readRom else Config.strayStep .read u := by
  simp [runningStep, BitVec.le_def]

theorem stepCode_of_not_busy {s : State} (h : s.busy = false) : s.stepCode = .idle := by
  simp [State.stepCode, h]

theorem stepCode_of_busy {s : State} (h : s.busy = true) : s.stepCode = runningStep s.op s.upc := by
  simp [State.stepCode, h]

/-- A running command is in a step of its own (R33). -/
theorem runningStep_ne_idle {o : Op} {u : BitVec 8} (h : u.toNat < progLen o) : runningStep o u ≠ .idle := by
  cases o with
  | read =>
    have : u.toNat ≤ 9 := Nat.le_of_lt_succ h
    simp [runningStep_read, this]
  | rewrite =>
    have : u.toNat ≤ 157 := Nat.le_of_lt_succ h
    simp only [runningStep_rewrite, this, if_true]
    split_ifs <;> simp

/-- Settles O35: STEP by the ranges of `UPC`, from `runningStep_rewrite` and `runningStep_read`. -/
theorem stepFollowsItsTable : Obligations.StepFollowsItsTable := by
  intro s
  refine ⟨stepCode_of_not_busy, ?_, ?_, by decide⟩
  · intro hb ho hu
    simp [stepCode_of_busy hb, ho, runningStep_read, hu]
  · intro hb ho
    rw [stepCode_of_busy hb, ho, runningStep_rewrite]
    grind

end Sys2Proof.Machine
end

section
/-! ### Legal flags: a running command, and how it ends -/

namespace Sys2Proof.Machine

/-- A legal state while a command runs (R30, R36 to R39). -/
structure State.Running (s : State) : Prop where
  busy : s.busy = true
  upc_lt : s.upc.toNat < progLen s.op
  done : s.done = false
  valid : s.valid = false
  matched : s.matched = false
  err : s.err = .none
  fstep : s.fstep = .idle
  oldvalid_iff : s.oldvalid = true ↔ s.op = .rewrite ∧ 10 ≤ s.upc.toNat

theorem State.Legal.running {s : State} (h : s.Legal) (hb : s.busy = true) : s.Running := by
  obtain ⟨⟨hupc, -⟩, hflags, -⟩ := h
  obtain ⟨hd, hv, hm, he, hf, ho⟩ := hflags hb
  exact ⟨hb, hupc hb, hd, hv, hm, he, hf, ho⟩

theorem State.Running.legal {s : State} (h : s.Running) : s.Legal := by
  obtain ⟨hb, hu, hd, hv, hm, he, hf, ho⟩ := h
  refine ⟨⟨fun _ => hu, by simp [hb]⟩, fun _ => ⟨hd, hv, hm, he, hf, ho⟩, ?_⟩
  simp only [State.EndFlags, hb, hd, hv, hm, he, hf, ErrCode.Aborts]
  simpa using fun h => (ho.mp h).1

/-- Two states in which the same micro-operation of the same command runs: they agree on what the programs, the flags
and the host decide, and may differ in what a transport operation touches. -/
structure State.SameControl (s u : State) : Prop where
  pat : u.pat = s.pat
  op : u.op = s.op
  upc : u.upc = s.upc
  busy : u.busy = s.busy
  done : u.done = s.done
  valid : u.valid = s.valid
  matched : u.matched = s.matched
  err : u.err = s.err
  fstep : u.fstep = s.fstep
  pins : u.pins = s.pins
  slot : u.slot = s.slot

theorem State.Running.of_sameControl {s u : State} (h : s.Running) (hc : s.SameControl u)
    (hv : u.oldvalid = s.oldvalid) : u.Running where
  busy := hc.busy.trans h.busy
  upc_lt := by simpa only [hc.upc, hc.op] using h.upc_lt
  done := hc.done.trans h.done
  valid := hc.valid.trans h.valid
  matched := hc.matched.trans h.matched
  err := hc.err.trans h.err
  fstep := hc.fstep.trans h.fstep
  oldvalid_iff := by simpa only [hc.upc, hc.op, hv] using h.oldvalid_iff

/-- An accepted command runs from its first micro-operation, whatever patterns are latched (R255, R256). -/
theorem accept_running (s : State) (o : Op) : (s.accept o).Running := by
  constructor <;> cases o <;> simp [progLen]

theorem accept_latchPat_running (s : State) (o : Op) (p : BitVec 64) : ((s.accept o).latchPat p).Running := by
  constructor <;> cases o <;> simp [progLen]

/-- An abort of a running command leaves legal flags: FSTEP is the step, ERR the cause, OLDVALID stays (R280). -/
theorem State.Running.abort_legal {s : State} (h : s.Running) {e : ErrCode} (he : e.Aborts) : (s.abort e).Legal := by
  have hstep : s.stepCode ≠ .idle := by
    rw [stepCode_of_busy h.busy]
    exact runningStep_ne_idle h.upc_lt
  have hne : e ≠ .verificationMismatch := by
    rintro rfl
    simp [ErrCode.Aborts] at he
  refine ⟨by simp [State.LegalUpc], by simp [State.BusyFlags], ?_⟩
  simp only [State.EndFlags, State.abort_valid, State.abort_matched, State.abort_oldvalid, State.abort_done,
    State.abort_err, State.abort_fstep, State.abort_op, State.abort_busy, h.valid, h.matched]
  simpa [hstep, hne, he] using fun ho => (h.oldvalid_iff.mp ho).1

/-- Completion of a command leaves legal flags: MATCH and ERR say how the read-back compares (R258, R232, R233). -/
theorem complete_legal {u : State} (hmatched : u.matched = false) (he : u.err = .none) (hf : u.fstep = .idle)
    (hv : u.oldvalid = true ↔ u.op = .rewrite) : u.complete.Legal := by
  have hm : u.complete.matches = u.matches := State.matches_congr rfl rfl
  refine ⟨by simp [State.LegalUpc], by simp [State.BusyFlags], ?_⟩
  simp only [State.EndFlags, State.complete_valid, State.complete_matched, State.complete_oldvalid,
    State.complete_done, State.complete_err, State.complete_fstep, State.complete_op, State.complete_busy, hm, hf]
  cases ho : u.op with
  | read => simp_all [State.endMatched, State.endErr, ErrCode.Aborts]
  | rewrite => cases hmt : u.matches <;> simp_all [State.endMatched, State.endErr, ErrCode.Aborts]

/-- A micro-operation that completes keeps the flags legal: OLDVALID is set with RBYTE OLDCODE,7, and `UPC` moves
on from 9 to 10 with it (R37, R218, R258). -/
theorem State.Running.advance_legal {s u : State} {i : Instr} (h : s.Running) (hi : s.programInstr = some i)
    (hc : s.SameControl u) (hv : u.oldvalid = (s.oldvalid || decide (i = .rbyte .oldcode 7))) : u.advance.Legal := by
  have hu : u.upc.toNat < progLen u.op := by simpa only [hc.upc, hc.op] using h.upc_lt
  have hold : u.oldvalid = true ↔ u.op = .rewrite ∧ 9 ≤ u.upc.toNat := by
    have h7 := programInstr_oldcode7 h.upc_lt hi
    rw [hv, Bool.or_eq_true, decide_eq_true_iff, h.oldvalid_iff, h7, hc.op, hc.upc]
    grind
  obtain ⟨hne, ha⟩ | ⟨hend, ha⟩ := advance_cases u
  · have hlen := progLen_le u.op
    have hnext : (u.upc + 1).toNat = u.upc.toNat + 1 := by bv_omega
    rw [ha]
    refine State.Running.legal ⟨hc.busy.trans h.busy, ?_, hc.done.trans h.done, hc.valid.trans h.valid,
      hc.matched.trans h.matched, hc.err.trans h.err, hc.fstep.trans h.fstep, ?_⟩
    · change (u.upc + 1).toNat < progLen u.op
      omega
    · change u.oldvalid = true ↔ u.op = .rewrite ∧ 10 ≤ (u.upc + 1).toNat
      rw [hold, hnext]
      simp
  · rw [ha]
    refine complete_legal (hc.matched.trans h.matched) (hc.err.trans h.err) (hc.fstep.trans h.fstep) ?_
    rw [hold, and_iff_left_iff_imp]
    intro ho
    have : u.upc.toNat + 1 = 158 := by rw [hend, ho]; rfl
    omega

/-- `rst` leaves legal flags (R310). -/
theorem applyReset_legal (s : State) : s.applyReset.Legal := by
  refine ⟨by simp [State.LegalUpc, State.applyReset, State.reset], ?_, ?_⟩ <;>
    simp [State.BusyFlags, State.EndFlags, State.applyReset, State.reset, ErrCode.Aborts]

theorem applyReset_atBoundary (s : State) : s.applyReset.AtBoundary := ⟨rfl, rfl, rfl⟩

end Sys2Proof.Machine
end

section
/-! ### What a micro-operation can do before it advances or aborts -/

namespace Sys2Proof.Machine

/-- Write slots only add to the wire (R122). -/
theorem wslots_wire_grows (bits : List Bool) (s : State) : s.wire <+: (wslots bits s).state.wire := by
  induction bits generalizing s with
  | nil => exact ⟨[], List.append_nil _⟩
  | cons b rest ih =>
    obtain ⟨-, h⟩ | ⟨-, h⟩ := wslot_cases b s
    · simp only [wslots, h]
      exact List.IsPrefix.trans ⟨[.w b], rfl⟩ (ih (s.dropWrite.logWire (.w b)).nextBit)
    · simp [wslots, h]

/-- Read slots only add to the wire (R124). -/
theorem rslots_wire_grows (n : Nat) (s : State) : s.wire <+: (rslots n s).state.wire := by
  induction n generalizing s with
  | zero => exact ⟨[], List.append_nil _⟩
  | succ m ih =>
    obtain ⟨b, -, h⟩ | ⟨-, h⟩ := rslot_cases s
    · simp only [rslots, h]
      exact List.IsPrefix.trans ⟨[.r b], rfl⟩ (ih ((s.dropRead.logWire (.r b)).shiftIn b).nextBit)
    · simp [rslots, h]

/-- `BITI` counts the write slots that completed (R50). -/
theorem wslots_biti {bits : List Bool} {s t : State} (h : wslots bits s = .ok t) :
    t.biti = s.biti + BitVec.ofNat 3 bits.length := by
  induction bits generalizing s with
  | nil =>
    cases h
    simp
  | cons b rest ih =>
    obtain ⟨-, hb⟩ | ⟨-, hb⟩ := wslot_cases b s <;> simp only [wslots, hb, reduceCtorEq] at h
    rw [ih h]
    simp [BitVec.add_assoc, BitVec.ofNat_add, BitVec.add_comm 1#3]

/-- `BITI` counts the read slots that completed (R50). -/
theorem rslots_biti {n : Nat} {s t : State} (h : rslots n s = .ok t) : t.biti = s.biti + BitVec.ofNat 3 n := by
  induction n generalizing s with
  | zero =>
    cases h
    simp
  | succ m ih =>
    obtain ⟨b, -, hb⟩ | ⟨-, hb⟩ := rslot_cases s <;> simp only [rslots, hb, reduceCtorEq] at h
    rw [ih h]
    simp [BitVec.add_assoc, BitVec.ofNat_add, BitVec.add_comm 1#3]

theorem uopWbyte_wire_grows (v : Byte) (s : State) : s.wire <+: (uopWbyte v s).state.wire := by
  have h : s.wire <+: (writeByte v s).state.wire := wslots_wire_grows (byteBits v) { s with biti := 0 }
  unfold uopWbyte
  cases hw : writeByte v s <;> simpa [hw] using h

theorem uopRbyte_wire_grows (d : Dest) (k : Fin 8) (s : State) : s.wire <+: (uopRbyte d k s).state.wire := by
  have h : s.wire <+: (readByte s).state.wire := rslots_wire_grows 8 { s with biti := 0, sr := 0 }
  unfold uopRbyte
  cases hr : readByte s <;> simpa [hr] using h

/-- A completed WBYTE has counted its eight slots round to 0 (R50). -/
theorem uopWbyte_biti {v : Byte} {s t : State} (h : uopWbyte v s = .ok t) : t.biti = 0 := by
  unfold uopWbyte at h
  cases hw : writeByte v s with
  | ok u =>
    simp only [hw, Flow.ok.injEq] at h
    simpa [← h] using wslots_biti hw
  | raised e u => simp [hw] at h

/-- A completed RBYTE has counted its eight slots round to 0 (R50). -/
theorem uopRbyte_biti {d : Dest} {k : Fin 8} {s t : State} (h : uopRbyte d k s = .ok t) : t.biti = 0 := by
  unfold uopRbyte at h
  cases hr : readByte s with
  | ok u =>
    simp only [hr, Flow.ok.injEq] at h
    simpa [← h] using rslots_biti hr
  | raised e u => simp [hr] at h

/-- What the micro-operation `i` leaves alone on its way from `s` to `u`, where it is about to advance or abort. -/
structure State.UopFrame (i : Instr) (s u : State) : Prop where
  control : s.SameControl u
  line : u.tcnt = s.tcnt ∧ u.oe = s.oe
  romcode : ∀ k : Fin 8, i ≠ .rbyte .romcode k → u.romcode[k] = s.romcode[k]
  oldcode : ∀ k : Fin 8, i ≠ .rbyte .oldcode k → u.oldcode[k] = s.oldcode[k]
  reset : i ≠ .reset → u.pres = s.pres ∧ u.ansReset = s.ansReset
  read : (∀ d k, i ≠ .rbyte d k) → u.sr = s.sr ∧ u.ansRead = s.ansRead
  write : (∀ v, i ≠ .wbyte v) → (∀ b, i ≠ .wbit b) → (∀ k j, i ≠ .wbitp k j) → u.ansWrite = s.ansWrite
  biti : (∀ v, i ≠ .wbyte v) → (∀ d k, i ≠ .rbyte d k) → u.biti = s.biti
  trace : s.trace <+: u.trace
  wire : s.wire <+: u.wire

/-- How a micro-operation ends (R120): it has done its work and advances, or it raised an error and aborts. -/
inductive State.UopOutcome (i : Instr) (s : State) : State → Prop
  | completed (u : State) (frame : s.UopFrame i u)
      (oldvalid : u.oldvalid = (s.oldvalid || decide (i = .rbyte .oldcode 7))) (biti : s.biti = 0 → u.biti = 0) :
      s.UopOutcome i u.advance
  | raised (u : State) (e : ErrCode) (frame : s.UopFrame i u) (oldvalid : u.oldvalid = s.oldvalid) (he : e.Aborts) :
      s.UopOutcome i (u.abort e)

@[simp] theorem State.sameControl_iff {s u : State} : s.SameControl u ↔
    (u.pat = s.pat ∧ u.op = s.op ∧ u.upc = s.upc ∧ u.pins = s.pins ∧ u.slot = s.slot) ∧
    (u.busy = s.busy ∧ u.done = s.done ∧ u.valid = s.valid ∧ u.matched = s.matched ∧ u.err = s.err ∧
      u.fstep = s.fstep) :=
  ⟨fun ⟨hp, ho, hu, hb, hd, hv, hm, he, hf, hpi, hs⟩ => ⟨⟨hp, ho, hu, hpi, hs⟩, hb, hd, hv, hm, he, hf⟩,
    fun ⟨⟨hp, ho, hu, hpi, hs⟩, hb, hd, hv, hm, he, hf⟩ => ⟨hp, ho, hu, hb, hd, hv, hm, he, hf, hpi, hs⟩⟩

/-- How a RESET ends (R121). -/
theorem uopReset_outcome (s : State) : s.UopOutcome .reset (uopReset s).finish := by
  obtain ⟨-, h⟩ | ⟨-, h⟩ | ⟨-, h⟩ := uopReset_cases s <;> rw [h]
  · exact .completed _ (by constructor <;> simp) (by simp) (by simp)
  · exact .raised _ _ (by constructor <;> simp) (by simp) (.inl rfl)
  · exact .raised _ _ (by constructor <;> simp) (by simp) (.inr rfl)

/-- How a WBYTE ends (R125, R126). -/
theorem uopWbyte_outcome (v : Byte) (s : State) : s.UopOutcome (.wbyte v) (uopWbyte v s).finish := by
  have hwire := uopWbyte_wire_grows v s
  obtain ⟨a, n, w, b, h | h⟩ := uopWbyte_cases v s <;> rw [h] at hwire ⊢
  · have hbiti := uopWbyte_biti h
    exact .completed _ (by constructor <;> simp_all) (by simp) fun _ => hbiti
  · exact .raised _ _ (by constructor <;> simp_all) (by simp) (.inr rfl)

/-- How a single-bit write ends, common to WBIT and WBITP (R123, R129). -/
theorem uopWbit_outcome (b : Bool) (s : State) {i : Instr} (hi : i = .wbit b ∨ ∃ k j, i = .wbitp k j) :
    s.UopOutcome i (uopWbit b s).finish := by
  obtain ⟨-, h⟩ | ⟨-, h⟩ := uopWbit_cases b s <;> rw [h] <;> obtain rfl | ⟨k, j, rfl⟩ := hi
  · exact .completed _ (by constructor <;> simp) (by simp) (by simp)
  · exact .completed _ (by constructor <;> simp) (by simp) (by simp)
  · exact .raised _ _ (by constructor <;> simp) (by simp) (.inr rfl)
  · exact .raised _ _ (by constructor <;> simp) (by simp) (.inr rfl)

/-- Storing a byte into `ROMCODE[k]` leaves the other registers of the file alone (R22). -/
theorem storeByte_romcode_ne {s : State} {d : Dest} {k j : Fin 8} {v : Byte} (h : d = .romcode → k ≠ j) :
    (s.storeByte d k v).romcode[j] = s.romcode[j] := by
  cases d with
  | romcode => simpa using Vector.getElem_set_ne _ _ (by simpa [Fin.ext_iff] using h rfl)
  | oldcode => rfl

/-- Storing a byte into `OLDCODE[k]` leaves the other registers of the file alone (R23). -/
theorem storeByte_oldcode_ne {s : State} {d : Dest} {k j : Fin 8} {v : Byte} (h : d = .oldcode → k ≠ j) :
    (s.storeByte d k v).oldcode[j] = s.oldcode[j] := by
  cases d with
  | romcode => rfl
  | oldcode => simpa using Vector.getElem_set_ne _ _ (by simpa [Fin.ext_iff] using h rfl)

theorem storeByte_oldvalid (s : State) (d : Dest) (k : Fin 8) (v : Byte) :
    (s.storeByte d k v).oldvalid = (s.oldvalid || decide (Instr.rbyte d k = .rbyte .oldcode 7)) := by
  cases d <;> simp
  rfl

/-- How an RBYTE ends (R127). -/
theorem uopRbyte_outcome (d : Dest) (k : Fin 8) (s : State) : s.UopOutcome (.rbyte d k) (uopRbyte d k s).finish := by
  have hwire := uopRbyte_wire_grows d k s
  obtain ⟨a, n, w, b, x, h | h⟩ := uopRbyte_cases d k s <;> rw [h] at hwire ⊢
  · have hbiti := uopRbyte_biti h
    refine .completed _ ?_ (by simp only [State.logCall_oldvalid, storeByte_oldvalid]) fun _ => hbiti
    constructor
    case romcode =>
      intro j hj
      rw [State.logCall_romcode, storeByte_romcode_ne (by grind)]
    case oldcode =>
      intro j hj
      rw [State.logCall_oldcode, storeByte_oldcode_ne (by grind)]
    all_goals simp_all
  · exact .raised _ _ (by constructor <;> simp_all) (by simp) (.inr rfl)

/-- How a WAIT10 ends (R131). -/
theorem uopWait10_outcome (s : State) : s.UopOutcome .wait10 (uopWait10 s).finish :=
  .completed _ (by constructor <;> simp) (by simp) (by simp)

/-- What a micro-operation can do at level T, said once. -/
theorem exec_uop_outcome {i : Instr} (hi : IsUop i) {s t : State} (h : exec i s = .next t) : s.UopOutcome i t := by
  cases hi <;> cases h
  case reset => exact uopReset_outcome s
  case wbyte v => exact uopWbyte_outcome v s
  case wbit b => exact uopWbit_outcome b s (.inl rfl)
  case wbitp k j => exact uopWbit_outcome _ s (.inr ⟨k, j, rfl⟩)
  case rbyte d k => exact uopRbyte_outcome d k s
  case wait10 => exact uopWait10_outcome s

end Sys2Proof.Machine
end

section
/-! ### The frame of the micro-operations -/

namespace Sys2Proof.Machine

/-- Settles O25: a micro-operation's own work keeps its frame (`exec_uop_outcome`), and so do the advance and the abort
that end it; BUSY stays 1 only in an advance short of the program's end. -/
theorem microOperationFrame : Obligations.MicroOperationFrame := by
  rintro i s t ⟨w, hw⟩ h
  cases exec_uop_outcome (isUop_of_decodeUop hw) h with
  | completed u frame hv _ =>
    obtain ⟨hc, hline, hrom, hold, hreset, hread, hwrite, hbiti, htrace, hwire⟩ := frame
    refine ⟨by simp [hc.pat, hc.op, hc.pins, hc.slot], by simpa using hrom, by simpa using hold,
      fun hi => by simp [hv, hi], by simpa using hreset, by simpa using hread, by simpa using hwrite,
      fun hb hr => .inl (by simpa using hbiti hb hr), .inl (by simpa using hline), by simp [htrace, hwire],
      fun ht => ?_⟩
    obtain ⟨hend, hbusy⟩ : u.atEnd = false ∧ u.busy = true := by simpa using ht
    refine ⟨hc.busy.symm.trans hbusy, ?_⟩
    simp [hend, hc.upc, hc.done, hc.valid, hc.matched, hc.err, hc.fstep]
  | raised u e frame hv _ =>
    obtain ⟨hc, -, hrom, hold, hreset, hread, hwrite, -, htrace, hwire⟩ := frame
    exact ⟨⟨hc.pat, hc.op, hc.pins, hc.slot⟩, hrom, hold, fun _ => hv, hreset, hread, hwrite,
      fun _ _ => .inr rfl, .inr ⟨rfl, rfl⟩, ⟨htrace, hwire⟩, by simp⟩

end Sys2Proof.Machine
end

section
/-! ### The invariant of level T -/

namespace Sys2Proof.Machine

/-- A micro-operation leaves legal flags, whether the command goes on, completes or aborts (R30, R36 to R39). -/
theorem State.UopOutcome.legal {i : Instr} {s t : State} (h : s.UopOutcome i t) (hs : s.Running)
    (hi : s.programInstr = some i) : t.Legal := by
  cases h with
  | completed u frame hv _ => exact hs.advance_legal hi frame.control hv
  | raised u e frame hv he => exact (hs.of_sameControl frame.control hv).abort_legal he

/-- A micro-operation of level T is a whole number of line operations (R50). -/
theorem State.UopOutcome.atBoundary {i : Instr} {s t : State} (h : s.UopOutcome i t) (hs : s.AtBoundary) :
    t.AtBoundary := by
  obtain ⟨htcnt, hbiti, hoe⟩ := hs
  cases h with
  | completed u frame _ hb =>
    obtain ⟨hut, huo⟩ := frame.line
    simp [State.AtBoundary, hut, huo, hb hbiti, htcnt, hoe]
  | raised u e _ _ _ => simp [State.AtBoundary]

theorem State.UopOutcome.slot_eq {i : Instr} {s t : State} (h : s.UopOutcome i t) : t.slot = s.slot := by
  cases h with
  | completed u frame _ _ => simpa using frame.control.slot
  | raised u e frame _ _ => simpa using frame.control.slot

/-- What the host can do to an idle core: nothing, a READ, or a REWRITE (R252, R253, R255 to R257). -/
theorem exec_host_cases {w : BitVec 66} {s t : State} (hb : s.busy = false) (h : exec (decodeHost w) s = .next t) :
    t = s ∨ t = s.accept .read ∨ ∃ p, t = (s.accept .rewrite).latchPat p := by
  simp only [decodeHost] at h
  split_ifs at h
  · cases h
    exact .inl rfl
  · simp only [exec, execRead, hb] at h
    cases h
    exact .inr (.inl rfl)
  · simp only [exec, execRewrite, hb] at h
    cases h
    exact .inr (.inr ⟨_, rfl⟩)
  · cases h
    exact .inl rfl

/-- A host command keeps the flags of an idle core legal, and starts no line operation (R252). -/
theorem exec_host_keeps {w : BitVec 66} {s t : State} (hs : s.Legal) (hb : s.busy = false)
    (h : exec (decodeHost w) s = .next t) :
    t.Legal ∧ (s.AtBoundary → t.AtBoundary) ∧ t.slot = s.slot := by
  obtain rfl | rfl | ⟨p, rfl⟩ := exec_host_cases hb h
  · exact ⟨hs, id, rfl⟩
  · exact ⟨(accept_running s .read).legal, id, rfl⟩
  · exact ⟨(accept_latchPat_running s .rewrite p).legal, id, rfl⟩

/-- One step of a core with no placed word: `rst`, a host command at the pins of an idle core, or the micro-operation
`UPC` points at (R120, R252, R310). -/
theorem step_next_cases {s t : State} (hslot : s.slot = none) (h : step s = .next t) :
    t = s.dropPins.applyReset ∨
    (s.busy = false ∧ ∃ w, exec (decodeHost w) s.fetched = .next t) ∨
    (s.busy = true ∧ ∃ i, s.programInstr = some i ∧ exec i s.fetched = .next t) := by
  obtain ⟨-, he⟩ | ⟨-, -, he⟩ | ⟨c, i, -, hw, hd, he⟩ | ⟨c, r, -, -, -, he⟩ := step_cases s <;> rw [he] at h
  · cases h
    exact .inl rfl
  · cases h
  · right
    cases hb : s.busy with
    | false =>
      simp only [State.nextWord, hslot, hb] at hw
      cases hw
      cases hd
      exact .inl ⟨rfl, _, h⟩
    | true =>
      simp only [State.nextWord, hslot, hb, if_true, Option.map_eq_some_iff] at hw
      obtain ⟨w, hpw, rfl⟩ := hw
      have hi : decodeUop w = .ok i := hd
      exact .inr ⟨rfl, i, by simp [State.programInstr, hpw, hi, Decoded.toOption], h⟩
  · cases h

/-- The fetch touches the pins and the slot only, of which legality does not speak. -/
theorem fetched_legal {s : State} (h : s.Legal) : s.fetched.Legal := h

/-- Settles O41: `rst` gives the reset state's flags, a host command starts a command, and a micro-operation advances or
aborts a running one. -/
theorem stepKeepsTheInvariant : Obligations.StepKeepsTheInvariant := by
  rintro s t ⟨hlegal, hline, hslot⟩ h
  obtain rfl | ⟨hb, w, he⟩ | ⟨hb, i, hi, he⟩ := step_next_cases hslot h
  · exact ⟨applyReset_legal _, applyReset_atBoundary _, hslot⟩
  · obtain ⟨ht, hbound, hsl⟩ := exec_host_keeps (fetched_legal hlegal) hb he
    exact ⟨ht, hbound hline, hsl⟩
  · have out := exec_uop_outcome (isUop_of_programInstr hi) he
    exact ⟨out.legal ((fetched_legal hlegal).running hb) hi, out.atBoundary hline, out.slot_eq⟩

/-- Settles O40: the reset state is a state after `rst`. -/
theorem resetStateIsLegal : Obligations.ResetStateIsLegal :=
  ⟨applyReset_legal State.reset, applyReset_atBoundary State.reset, rfl⟩

end Sys2Proof.Machine
end

section
/-! ### Line operations of level L: their lengths, and when a running core is legal there -/

namespace Sys2Proof.Machine

/-- Every line operation releases the line before its last tick, so none is empty (R11, R160, R163, R167, R172). -/
theorem LineOp.low_lt_len {T : Timing} (hT : T.Wf) (o : LineOp) : o.low T < o.len T := by
  obtain ⟨⟨-, hsettle⟩, ⟨hA, hB, hAC, hD, hE, hF, hH, hI, hJ⟩, -⟩ := hT
  have hpos : T.tSettle ≠ 0 := by
    intro h
    simp [h] at hsettle
  rcases o with _ | (_ | _) | _ | _ <;> simp [LineOp.low, LineOp.len] <;> omega

/-- Every line operation fits `TCNT` (R50, R137). -/
theorem LineOp.len_le {T : Timing} (hT : T.Wf) (o : LineOp) : o.len T ≤ 2 ^ 14 := by
  obtain ⟨-, -, htrue, hfalse, hread, hreset, hwait⟩ := hT
  rcases o with _ | (_ | _) | _ | _ <;> assumption

/-- The line is released in the last tick of an operation (R154). -/
theorem driveLow_last_tick {T : Timing} (hT : T.Wf) {o : LineOp} {n : Nat} (h : n + 1 = o.len T) (inp : Bool) :
    driveLow T o n inp = false := by
  have := o.low_lt_len hT
  simp [driveLow, show ¬ n < o.low T by omega]

theorem lineOk_iff {s : State} {T : Timing} {i : Instr} {o : LineOp} (hi : s.programInstr = some i)
    (ho : lineOp i s = some o) :
    s.lineOk T = true ↔ s.tcnt.toNat < o.len T ∧ (s.biti = 0 ∨ isByteOp i = true) := by
  simp [State.lineOk, hi, ho]

/-- The line operation is a matter of the patterns and `BITI` (R170). -/
theorem lineOp_congr {s u : State} (hp : u.pat = s.pat) (hb : u.biti = s.biti) (i : Instr) :
    lineOp i u = lineOp i s := by
  cases i <;> simp only [lineOp, hp, hb]

/-- In its first tick every line operation of a legal running core is in order (R50). -/
theorem lineOk_first_tick {T : Timing} (hT : T.Wf) {s : State} {i : Instr} (hi : s.programInstr = some i)
    (ht : s.tcnt = 0) (hb : s.biti = 0 ∨ isByteOp i = true) : s.lineOk T = true := by
  obtain ⟨o, ho⟩ := (isUop_of_programInstr hi).lineOp_isSome s
  have hlen := o.low_lt_len hT
  have hzero : s.tcnt.toNat = 0 := by simp [ht]
  exact (lineOk_iff hi ho).mpr ⟨by omega, hb⟩

/-- A running command is legal at level L when its line operation is in order. -/
theorem State.Running.tickInv {T : Timing} {s : State} (h : s.Running) (hl : s.lineOk T = true) : s.TickInv T :=
  ⟨h.legal, fun _ => hl, by simp [h.busy]⟩

/-- A legal state between two line operations is legal at level L, whether a command runs or not. -/
theorem tickInv_of_atBoundary {T : Timing} (hT : T.Wf) {s : State} (hs : s.Legal) (hl : s.AtBoundary) :
    s.TickInv T := by
  refine ⟨hs, fun hb => ?_, fun _ => hl⟩
  obtain ⟨htcnt, hbiti, -⟩ := hl
  obtain ⟨i, hi⟩ := programInstr_legal (hs.running hb).upc_lt
  exact lineOk_first_tick hT hi htcnt (.inl hbiti)

end Sys2Proof.Machine
end

section
/-! ### What one tick of a line operation can do, said once -/

namespace Sys2Proof.Machine

/-- The start of a byte touches `SR` only (R170). -/
theorem startByte_frame (s : State) (o : LineOp) : ∃ x, s.startByte o = { s with sr := x } := by
  unfold State.startByte
  split
  · exact ⟨0, rfl⟩
  · exact ⟨s.sr, rfl⟩

/-- A sample touches `SR` and `PRES` only (R160, R168). -/
theorem sample_frame (s : State) (T : Timing) (o : LineOp) (n : Nat) (inp : Bool) :
    ∃ x p, s.sample T o n inp = { s with sr := x, pres := p } := by
  cases o <;> simp only [State.sample]
  case reset =>
    split
    · exact ⟨s.sr, !inp, rfl⟩
    · exact ⟨s.sr, s.pres, rfl⟩
  case read =>
    split
    · exact ⟨setBit s.sr s.biti inp, s.pres, rfl⟩
    · exact ⟨s.sr, s.pres, rfl⟩
  case write => exact ⟨s.sr, s.pres, rfl⟩
  case wait => exact ⟨s.sr, s.pres, rfl⟩

/-- How a tick leaves the micro-operation `i` (R295): within a line operation, at the next slot of a byte, completed, or
with an error raised. -/
inductive State.TickOutcome (T : Timing) (i : Instr) (o : LineOp) (s : State) : State → Prop
  | within (u : State) (control : s.SameControl u) (oldvalid : u.oldvalid = s.oldvalid)
      (more : s.tcnt.toNat + 1 ≠ o.len T) (tcnt : u.tcnt = s.tcnt + 1) (biti : u.biti = s.biti) : s.TickOutcome T i o u
  | nextSlot (u : State) (control : s.SameControl u) (oldvalid : u.oldvalid = s.oldvalid) (tcnt : u.tcnt = 0)
      (byte : isByteOp i = true) : s.TickOutcome T i o u
  | completed (u : State) (control : s.SameControl u)
      (oldvalid : u.oldvalid = (s.oldvalid || decide (i = .rbyte .oldcode 7))) (tcnt : u.tcnt = 0) (oe : u.oe = false)
      (biti : s.biti = 0 ∨ isByteOp i = true → u.biti = 0) : s.TickOutcome T i o u.advance
  | raised (u : State) (e : ErrCode) (control : s.SameControl u) (oldvalid : u.oldvalid = s.oldvalid)
      (he : e.Aborts) : s.TickOutcome T i o (u.abort e)

/-- The last tick of a line operation, on the state `u` it has sampled. -/
theorem endLineOp_outcome {T : Timing} {i : Instr} (hi : IsUop i) (o : LineOp) {s u : State} (hc : s.SameControl u)
    (hv : u.oldvalid = s.oldvalid) (ht : u.tcnt = 0) (hoe : u.oe = false) (hb : u.biti = s.biti) :
    s.TickOutcome T i o (endLineOp i u) := by
  rw [State.sameControl_iff] at hc
  cases hi <;> simp only [endLineOp]
  case reset =>
    split
    · exact .completed _ (by simpa using hc) (by simpa using hv) ht hoe (by simp [isByteOp, hb])
    · exact .raised _ _ (by simpa using hc) hv (.inl rfl)
  case wbyte v =>
    split
    next h7 => exact .completed _ (by simpa using hc) (by simpa using hv) ht hoe (by simp [h7])
    next => exact .nextSlot _ (by simpa using hc) hv ht rfl
  case wbit b => exact .completed _ (by simpa using hc) (by simpa using hv) ht hoe (by simp [isByteOp, hb])
  case wbitp k j => exact .completed _ (by simpa using hc) (by simpa using hv) ht hoe (by simp [isByteOp, hb])
  case rbyte d k =>
    split
    next h7 =>
      exact .completed _ (by simpa using hc) (by simp only [State.logCall_oldvalid, storeByte_oldvalid]; simp [hv])
        (by simpa using ht) (by simpa using hoe) (by simp [h7])
    next => exact .nextSlot _ (by simpa using hc) hv ht rfl
  case wait10 => exact .completed _ (by simpa using hc) (by simpa using hv) ht hoe (by simp [isByteOp, hb])

/-- One tick of a line operation: the checks, the sample, then the end or the next tick (R295). -/
theorem tickLine_outcome {T : Timing} (hT : T.Wf) {i : Instr} (hi : IsUop i) (o : LineOp) (s : State) (inp : Bool) :
    s.TickOutcome T i o (tickLine T inp i o s) := by
  obtain ⟨x, hx⟩ := startByte_frame s o
  simp only [tickLine, hx]
  split
  · exact .raised _ _ (by simp) rfl (.inr rfl)
  · obtain ⟨y, p, hu⟩ := sample_frame { s with sr := x, oe := driveLow T o s.tcnt.toNat inp } T o s.tcnt.toNat inp
    rw [hu]
    split
    next hend => exact endLineOp_outcome hi o (by simp) rfl rfl (driveLow_last_tick hT hend inp) rfl
    next hmore => exact .within _ (by simp) rfl hmore rfl rfl

/-- A tick of a legal running core leaves a legal one (R30, R37, R50, R153). -/
theorem State.TickOutcome.tickInv {T : Timing} (hT : T.Wf) {i : Instr} {o : LineOp} {s t : State}
    (h : s.TickOutcome T i o t) (hs : s.Running) (hi : s.programInstr = some i) (ho : lineOp i s = some o)
    (hok : s.lineOk T = true) : t.TickInv T := by
  obtain ⟨hlt, hbiti⟩ := (lineOk_iff hi ho).mp hok
  cases h with
  | within _ hc hv hmore ht hb =>
    have hi' : t.programInstr = some i := (programInstr_congr hc.op hc.upc).trans hi
    have ho' : lineOp i t = some o := (lineOp_congr hc.pat hb i).trans ho
    have hlen := o.len_le hT
    refine (hs.of_sameControl hc hv).tickInv ((lineOk_iff hi' ho').mpr ⟨?_, by rwa [hb]⟩)
    have hnext : (s.tcnt + 1).toNat = s.tcnt.toNat + 1 := by bv_omega
    rw [ht, hnext]
    omega
  | nextSlot _ hc hv ht hbyte =>
    have hi' : t.programInstr = some i := (programInstr_congr hc.op hc.upc).trans hi
    exact (hs.of_sameControl hc hv).tickInv (lineOk_first_tick hT hi' ht (.inr hbyte))
  | completed u hc hv ht hoe hb =>
    exact tickInv_of_atBoundary hT (hs.advance_legal hi hc hv)
      ⟨(State.advance_tcnt u).trans ht, (State.advance_biti u).trans (hb hbiti), (State.advance_oe u).trans hoe⟩
  | raised u e hc hv he =>
    exact tickInv_of_atBoundary hT ((hs.of_sameControl hc hv).abort_legal he) ⟨rfl, rfl, rfl⟩

/-- Settles O52: `rst` and a command sample leave a state between two line operations, and a tick of a line operation
ends as `tickLine_outcome` says. -/
theorem tickKeepsTheInvariant : Obligations.TickKeepsTheInvariant := by
  rintro T x s t hT ⟨hlegal, hrun, hidle⟩ h
  obtain ⟨-, he⟩ | ⟨-, hb, he⟩ | ⟨i, o, -, hb, hi, ho, he⟩ | ⟨-, -, he⟩ := tick_cases T x s <;> rw [he] at h
  · cases h
    exact tickInv_of_atBoundary hT (applyReset_legal s) (applyReset_atBoundary s)
  · obtain ⟨htcnt, hbiti, -⟩ := hidle hb
    have hs : State.Legal { s with oe := false } := hlegal
    obtain ⟨ht, hbound, -⟩ := exec_host_keeps hs hb h
    exact tickInv_of_atBoundary hT ht (hbound ⟨htcnt, hbiti, rfl⟩)
  · cases h
    exact (tickLine_outcome hT (isUop_of_programInstr hi) o s x.owIn).tickInv hT (hlegal.running hb) hi ho (hrun hb)
  · cases h

/-- Settles O51: the reset state is a state after `rst`, and no command runs in it. -/
theorem resetStateIsLegalAtLevelL : Obligations.ResetStateIsLegalAtLevelL := fun _ =>
  ⟨applyReset_legal State.reset, fun h => absurd h (by decide), fun _ => applyReset_atBoundary State.reset⟩

end Sys2Proof.Machine
end

section
/-! ### The fields of STATUS, the two ports and the register numbers -/

namespace Sys2Proof.Machine

/-- The one-bit fields of STATUS (R40). The library's lemmas see the widths as the sums the concatenation makes of them,
hence `-Nat.reduceAdd`. -/
theorem status_bits (s : State) :
    (s.status.getLsbD 0 = s.busy ∧ s.status.getLsbD 1 = s.done ∧ s.status.getLsbD 2 = s.valid) ∧
    (s.status.getLsbD 3 = s.oldvalid ∧ s.status.getLsbD 4 = s.matched ∧
      s.status.getLsbD 7 = (opBit s.op).getLsbD 0) := by
  simp only [State.status, BitVec.getLsbD_append, -Nat.reduceAdd]
  simp

/-- The wider fields of STATUS (R40). -/
theorem status_fields (s : State) :
    s.status.extractLsb' 5 2 = errBits s.err ∧ s.status.extractLsb' 8 4 = stepBits s.stepCode ∧
    s.status.extractLsb' 12 4 = stepBits s.fstep := by
  simp [State.status, BitVec.extractLsb'_append_eq_of_add_le, BitVec.extractLsb'_append_eq_left, -Nat.reduceAdd]

/-- The OP bit (R31). -/
theorem opBit_getLsbD (o : Op) : (opBit o).getLsbD 0 = (o == .rewrite) := by
  cases o <;> rfl

/-- Settles O36, from the bits and the fields. -/
theorem statusLayout : Obligations.StatusLayout := by
  refine ⟨fun s => ?_, by decide⟩
  obtain ⟨⟨hbusy, hdone, hvalid⟩, hold, hmatched, hop⟩ := status_bits s
  obtain ⟨herr, hstep, hfstep⟩ := status_fields s
  exact ⟨hbusy, hdone, hvalid, hold, hmatched, herr, hop.trans (opBit_getLsbD s.op), hstep, hfstep⟩

/-- Register `k` of a packed port stands in bits `8k+7:8k` (R24, R45). -/
theorem packPort_extract (r : Bytes8) (k : Fin 8) : (packPort r).extractLsb' (8 * k.val) 8 = r[k] := by
  unfold packPort
  fin_cases k <;>
    simp [BitVec.extractLsb'_append_eq_of_add_le, BitVec.extractLsb'_append_eq_left, -Nat.reduceAdd]

/-- Pattern `k` of the input port is bits `8k+7:8k` (R45, R256). -/
theorem unpackPort_getElem (p : BitVec 64) (k : Fin 8) : (unpackPort p)[k] = p.extractLsb' (8 * k.val) 8 := by
  fin_cases k <;> rfl

theorem regView_status (s : State) : s.regView 0 = .status s.status := rfl

theorem regView_romcode (s : State) (k : Fin 8) : s.regView (1 + k.val) = .byte s.romcode[k] := by
  have : 1 + k.val ≤ 8 := by omega
  simp [State.regView, this]

theorem regView_oldcode (s : State) (k : Fin 8) : s.regView (9 + k.val) = .byte s.oldcode[k] := by
  have : ¬ 9 + k.val ≤ 8 ∧ 9 + k.val ≤ 16 := by omega
  simp [State.regView, this]

theorem regView_pat (s : State) (k : Fin 8) : s.regView (17 + k.val) = .notReadable := by
  have : ¬ 17 + k.val ≤ 8 ∧ ¬ 17 + k.val ≤ 16 ∧ 17 + k.val ≤ 24 := by omega
  simp [State.regView, this]

theorem regView_beyond (s : State) {n : Nat} (h : 25 ≤ n) : s.regView n = .noSuchRegister := by
  have : n ≠ 0 ∧ ¬ n ≤ 8 ∧ ¬ n ≤ 16 ∧ ¬ n ≤ 24 := by omega
  simp [State.regView, this]

/-- Settles O37, number by number. -/
theorem registerNumbersAndPorts : Obligations.RegisterNumbersAndPorts := fun s =>
  ⟨regView_status s, fun k => ⟨regView_romcode s k, regView_oldcode s k, regView_pat s k⟩,
    fun _ => regView_beyond s, fun k => ⟨packPort_extract s.romcode k, packPort_extract s.oldcode k⟩⟩

/-- Settles O14, register by register on the one reset state. -/
theorem everyRegisterIsZeroAtReset : Obligations.EveryRegisterIsZeroAtReset :=
  ⟨⟨by decide, by decide, by decide, by decide⟩, by decide, by decide⟩

/-- Settles O10: acceptance of a REWRITE, then the latching of the patterns. -/
theorem rewriteIsAccepted : Obligations.RewriteIsAccepted := by
  intro s p hb
  exact ⟨(s.accept .rewrite).latchPat p, by simp [exec, execRewrite, hb], unpackPort_getElem p, rfl⟩

end Sys2Proof.Machine
end

section
/-! ### RBYTE on eight answered bits -/

namespace Sys2Proof.Machine

/-- Bit `i` of a byte goes out, or comes in, as the `i`-th (R63). -/
theorem byteBits_getElem? (v : Byte) (i : Fin 8) : (byteBits v)[i.val]? = some (v.getLsbD i.val) := by
  fin_cases i <;> rfl

/-- Settles O22: the byte is the assembled one, whose bits are the samples in order (`byteBits_assemble`). -/
theorem rbyteAssemblesEightBits : Obligations.RbyteAssemblesEightBits := by
  intro s k bits l hbits hl
  refine ⟨assemble bits, fun i => ?_, ?_, ?_⟩
  · rw [← byteBits_getElem? (assemble bits) i, byteBits_assemble hbits]
  · simp only [exec, execRbyte, uopRbyte_ok .romcode k bits hbits s l hl, Flow.finish_ok]
    rfl
  · simp only [exec, execRbyte, uopRbyte_ok .oldcode k bits hbits s l hl, Flow.finish_ok]
    rfl

end Sys2Proof.Machine
end

section
/-! ### What the write micro-operations send -/

namespace Sys2Proof.Machine

/-- A single-bit write with an Ok answer (R122, R123). -/
theorem uopWbit_ok {b : Bool} {s : State} (h : s.writeAnswer b = .ok) :
    uopWbit b s = .ok ((s.dropWrite.logWire (.w b)).logCall (.wbit b none)) := by
  simp only [uopWbit, wslot, h]

/-- A single-bit write with a Fault answer (R122, R123). -/
theorem uopWbit_fault {b : Bool} {s : State} (h : s.writeAnswer b = .fault) :
    uopWbit b s = .raised .transportTimingFault (s.dropWrite.logCall (.wbit b (some 0))) := by
  simp only [uopWbit, wslot, h]

/-- Settles O19: WBITP is the single-bit write of `PAT[k][i]`, on each of its two answers. -/
theorem wbitpSendsThePatternBit : Obligations.WbitpSendsThePatternBit := by
  refine ⟨fun s k i h => ?_, fun s k i h => ?_⟩
  · simp only [exec, execWbitp, uopWbitp, uopWbit_ok (b := patBit s.pat k i) h, Flow.finish_ok]
    rfl
  · simp only [exec, execWbitp, uopWbitp, uopWbit_fault (b := patBit s.pat k i) h, Flow.finish_raised]
    rfl

/-- Settles O20: eight Ok answers let the byte complete (`uopWbyte_ok`), with its bits on the wire in order. -/
theorem wbyteSendsEightBits : Obligations.WbyteSendsEightBits := by
  intro s v l hl
  simp only [exec, execWbyte, uopWbyte_ok v s l hl, Flow.finish_ok]
  rfl

end Sys2Proof.Machine
end

section
/-! ### One step of level T on each kind of core, and runs of steps -/

namespace Sys2Proof.Machine

/-- A micro-operation always has a next state. -/
theorem IsUop.exec_next {i : Instr} (h : IsUop i) (s : State) : ∃ t, exec i s = .next t := by
  cases h <;> exact ⟨_, rfl⟩

/-- A running core runs `prog(OP)[UPC]` (R120). -/
theorem step_of_busy {s : State} {i : Instr} (hrst : s.pinsNow.rst = false) (hslot : s.slot = none)
    (hb : s.busy = true) (hi : s.programInstr = some i) : step s = exec i s.fetched := by
  obtain ⟨w, hw, hd⟩ := programInstr_eq_some hi
  simp [step, hrst, runNext, State.nextWord, hslot, hb, hw, runWord, decode, hd]

/-- An idle core runs the command at the pins (R252). -/
theorem step_of_idle {s : State} (hrst : s.pinsNow.rst = false) (hslot : s.slot = none) (hb : s.busy = false) :
    step s = exec (decodeHost s.pinsNow.word) s.fetched := by
  simp [step, hrst, runNext, State.nextWord, hslot, hb, runWord, decode]

theorem pinsNow_nil {s : State} (h : s.pins = []) : s.pinsNow = Pins.quiet := by
  simp only [State.pinsNow, h]

theorem pinsNow_cons {s : State} {p : Pins} {l : List Pins} (h : s.pins = p :: l) : s.pinsNow = p := by
  simp only [State.pinsNow, h]

/-- With nothing at the pins and no placed word a fetch takes nothing away. -/
theorem fetched_of_quiet {s : State} (hp : s.pins = []) (hslot : s.slot = none) : s.fetched = s := by
  cases s
  simp_all [State.fetched, State.dropPins]

/-- An idle core with quiet pins stays as it is (R253). -/
theorem step_of_idle_quiet {s : State} (hp : s.pins = []) (hslot : s.slot = none) (hb : s.busy = false) :
    step s = .next s := by
  have hnop : decodeHost Pins.quiet.word = .nop := by decide
  rw [step_of_idle (by rw [pinsNow_nil hp]; rfl) hslot hb, pinsNow_nil hp, hnop, fetched_of_quiet hp hslot]
  rfl

/-- The pins that give a READ hold its word (R91). -/
theorem decodeHost_of_gives_read {p : Pins} (h : p.Gives .read) : decodeHost p.word = .read := by
  obtain ⟨-, hw, hr⟩ := h
  simp [Pins.word, decodeHost, hostWord_cmd, hw, hr]

/-- The pins that give a REWRITE hold its patterns (R91). -/
theorem decodeHost_of_gives_rewrite {p : Pins} (h : p.Gives .rewrite) : decodeHost p.word = .rewrite p.patIn := by
  obtain ⟨-, hw, hr⟩ := h
  simp [Pins.word, decodeHost, hostWord_cmd, hostWord_patIn, hw, hr]

/-- A running core with quiet pins runs `prog(OP)[UPC]` on itself (R120). -/
theorem step_of_busy_quiet {s : State} {i : Instr} (hp : s.pins = []) (hslot : s.slot = none) (hb : s.busy = true)
    (hi : s.programInstr = some i) : step s = exec i s := by
  rw [step_of_busy (by rw [pinsNow_nil hp]; rfl) hslot hb hi, fetched_of_quiet hp hslot]

/-- An idle core to which a READ is given accepts it (R255). -/
theorem step_of_given_read {s : State} {p : Pins} (h : s.CommandGiven p .read) :
    step s = .next (s.fetched.accept .read) := by
  obtain ⟨⟨-, -, hslot⟩, hb, hpins, hgives⟩ := h
  have hnow := pinsNow_cons hpins
  rw [step_of_idle (by rw [hnow]; exact hgives.1) hslot hb, hnow, decodeHost_of_gives_read hgives]
  simp [exec, execRead, hb]

/-- An idle core to which a REWRITE is given accepts it and latches the patterns (R256). -/
theorem step_of_given_rewrite {s : State} {p : Pins} (h : s.CommandGiven p .rewrite) :
    step s = .next ((s.fetched.accept .rewrite).latchPat p.patIn) := by
  obtain ⟨⟨-, -, hslot⟩, hb, hpins, hgives⟩ := h
  have hnow := pinsNow_cons hpins
  rw [step_of_idle (by rw [hnow]; exact hgives.1) hslot hb, hnow, decodeHost_of_gives_rewrite hgives]
  simp [exec, execRewrite, hb]

/-- What holds, and lets every step have a next state of which it holds again, holds after any number of steps. -/
theorem runSteps_of_step_keeps {P : State → Prop} (hstep : ∀ s, P s → ∃ t, step s = .next t ∧ P t) (n : Nat)
    {s : State} (hs : P s) : ∃ t, runSteps n s = .next t ∧ P t := by
  induction n generalizing s with
  | zero => exact ⟨s, rfl, hs⟩
  | succ n ih =>
    obtain ⟨u, hu, hpu⟩ := hstep s hs
    obtain ⟨t, ht, hpt⟩ := ih hpu
    exact ⟨t, by simp only [runSteps, hu, ht], hpt⟩

end Sys2Proof.Machine
end

section
/-! ### The calls of the micro-operations, and of the two programs -/

namespace Sys2Proof.Machine

/-- The call a micro-operation makes, on the patterns `pat` (R17, R135); no other instruction makes one of its own. -/
def uopCall (pat : Bytes8) (i : Instr) : Option Call :=
  match i with
  | .reset => some .reset
  | .wbyte v => some (.wbyte v)
  | .wbit b => some (.wbit b)
  | .wbitp k j => some (.wbit (patBit pat k j))
  | .rbyte _ _ => some .rbyte
  | .wait10 => some .wait10
  | _ => none

/-- The call of a micro-program word. -/
def wordCall (pat : Bytes8) (w : BitVec 11) : Option Call := (decodeUop w).toOption.bind (uopCall pat)

/-- The calls of the READ program (R203, R206). -/
theorem readWords_calls (pat : Bytes8) : readWords.map (wordCall pat) = readCalls.map some := by
  rfl

/-- The calls of states 1 to 5 (R217, R236). -/
theorem rewriteOpening_calls (pat : Bytes8) : rewriteOpening.map (wordCall pat) =
    (readCalls ++ [Call.reset, Call.wbyte 0xD1, Call.wbit false, Call.wait10, Call.reset,
      Call.wbyte 0xD5]).map some := by
  rfl

/-- The calls of one byte of state 6 (R191). -/
theorem codecWords_calls (pat : Bytes8) (k : Fin 8) : (codecWords k).map (wordCall pat) =
    (indices.flatMap fun i => [Call.wbit (patBit pat k i), .wait10]).map some :=
  calc (codecWords k).map (wordCall pat)
    _ = ((codecWords k).map fun w => (decodeUop w).toOption).map fun o => o.bind (uopCall pat) := by
      rw [List.map_map]
      rfl
    _ = (indices.flatMap fun i => [Call.wbit (patBit pat k i), .wait10]).map some := by
      rw [codecWords_instrs k]
      rfl

/-- The calls of states 7 to 10 (R217, R236). -/
theorem rewriteClosing_calls (pat : Bytes8) : rewriteClosing.map (wordCall pat) =
    ([Call.reset, Call.wbyte 0xD1, Call.wbit true, Call.wait10] ++ readCalls).map some := by
  rfl

/-- The calls of a complete command are those of its program's words, one each (R75, R206, R236). -/
theorem progWords_calls (pat : Bytes8) (o : Op) :
    (progWords o).map (wordCall pat) = (commandCalls pat o).map some := by
  cases o with
  | read => exact readWords_calls pat
  | rewrite =>
    simp [progWords, rewriteWords, commandCalls, rewriteCalls, rewriteOpening_calls, rewriteClosing_calls,
      List.map_flatMap, codecWords_calls]

@[simp] theorem commandCalls_length (pat : Bytes8) (o : Op) : (commandCalls pat o).length = progLen o := by
  simpa using (congrArg List.length (progWords_calls pat o)).symm

/-- The call of the micro-operation `UPC` points at stands at `UPC` in the command's calls (R75). -/
theorem commandCalls_getElem? {s : State} {i : Instr} {c : Call} (hi : s.programInstr = some i) {pat : Bytes8}
    (hc : uopCall pat i = some c) : (commandCalls pat s.op)[s.upc.toNat]? = some c := by
  obtain ⟨w, hw, hd⟩ := programInstr_eq_some hi
  have hw' : (progWords s.op)[s.upc.toNat]? = some w := hw
  have h := congrArg (fun l => l[s.upc.toNat]?) (progWords_calls pat s.op)
  simpa [hw', wordCall, hd, Decoded.toOption, hc] using h.symm

/-- `UPC + 1` does not wrap inside a program (R32). -/
theorem toNat_upc_add_one {s : State} (h : s.upc.toNat < progLen s.op) : (s.upc + 1).toNat = s.upc.toNat + 1 := by
  have hlen := progLen_le s.op
  bv_omega

/-- A completed micro-operation raises no error of a call, whether it ends the command or not (R270). -/
theorem advance_err_not_aborts {s : State} (h : s.err = .none) : ¬ s.advance.err.Aborts := by
  rw [State.advance_err]
  split
  · cases ho : s.op with
    | read => simp [State.endErr, ho, h, ErrCode.Aborts]
    | rewrite => cases hm : s.matches <;> simp [State.endErr, ho, hm, h, ErrCode.Aborts]
  · simp [h, ErrCode.Aborts]

/-- A single-bit write logs one event, common to WBIT and WBITP (R123, R129). -/
theorem uopWbit_logs (b : Bool) {s : State} (herr : s.err = .none) :
    ∃ e, (uopWbit b s).finish.trace = s.trace ++ [e] ∧ some (Call.wbit b) = some e.call ∧
      (e.failed = true ↔ (uopWbit b s).finish.err.Aborts) := by
  obtain ⟨-, hw⟩ | ⟨-, hw⟩ := uopWbit_cases b s <;> rw [hw]
  · exact ⟨.wbit b none, by simp, rfl, iff_of_false nofun (advance_err_not_aborts herr)⟩
  · exact ⟨.wbit b (some 0), rfl, rfl, iff_of_true rfl (.inr rfl)⟩

/-- A micro-operation logs one event, of its own call; the call has failed exactly when the command aborts (R17). -/
theorem exec_uop_logs {i : Instr} (hi : IsUop i) {s t : State} (herr : s.err = .none) (h : exec i s = .next t) :
    ∃ e, t.trace = s.trace ++ [e] ∧ uopCall s.pat i = some e.call ∧ (e.failed = true ↔ t.err.Aborts) := by
  cases hi <;> cases h
  case reset =>
    obtain ⟨-, hr⟩ | ⟨-, hr⟩ | ⟨-, hr⟩ := uopReset_cases s <;> rw [hr]
    · exact ⟨.reset .presence, by simp, rfl, iff_of_false (by decide) (advance_err_not_aborts herr)⟩
    · exact ⟨.reset .noPresence, rfl, rfl, iff_of_true rfl (.inl rfl)⟩
    · exact ⟨.reset .fault, rfl, rfl, iff_of_true rfl (.inr rfl)⟩
  case wbyte v =>
    obtain ⟨_, _, _, b, hw | hw⟩ := uopWbyte_cases v s <;> rw [hw]
    · exact ⟨.wbyte v none, by simp, rfl, iff_of_false nofun (advance_err_not_aborts herr)⟩
    · exact ⟨.wbyte v (some b), rfl, rfl, iff_of_true rfl (.inr rfl)⟩
  case wbit b => exact uopWbit_logs b herr
  case wbitp k j => exact uopWbit_logs (patBit s.pat k j) herr
  case rbyte d k =>
    obtain ⟨_, _, _, b, x, hr | hr⟩ := uopRbyte_cases d k s <;> rw [hr]
    · exact ⟨.rbyte x, by simp, rfl, iff_of_false nofun (advance_err_not_aborts (by simpa using herr))⟩
    · exact ⟨.rbyteFault b, rfl, rfl, iff_of_true rfl (.inr rfl)⟩
  case wait10 => exact ⟨.wait10, by simp [uopWait10], rfl, iff_of_false nofun (advance_err_not_aborts herr)⟩

end Sys2Proof.Machine
end

section
/-! ### The trace of a command (R75) -/

namespace Sys2Proof.Machine

/-- How far a core is in its command when `tr` is the command's trace so far: `UPC` calls have been made, or all of
them, or the last one has failed. -/
inductive State.CommandTrace (t : State) : List Event → Prop
  | running (tr : List Event) (busy : t.busy = true)
      (calls : tr.map Event.call = (commandCalls t.pat t.op).take t.upc.toNat) (ok : ∀ e ∈ tr, e.failed = false) :
      t.CommandTrace tr
  | completed (tr : List Event) (busy : t.busy = false) (valid : t.valid = true)
      (calls : tr.map Event.call = commandCalls t.pat t.op) (ok : ∀ e ∈ tr, e.failed = false) : t.CommandTrace tr
  | failed (tr : List Event) (e : Event) (busy : t.busy = false) (err : t.err.Aborts)
      (calls : (tr ++ [e]).map Event.call <+: commandCalls t.pat t.op) (ok : ∀ e ∈ tr, e.failed = false)
      (fails : e.failed = true) : t.CommandTrace (tr ++ [e])

/-- A core left alone with a command of these calls since its trace was `base`. -/
structure State.OnCommand (base : List Event) (calls : List Call) (t : State) : Prop where
  inv : t.Inv
  quiet : t.pins = []
  calls_eq : commandCalls t.pat t.op = calls
  trace : ∃ tr, t.trace = base ++ tr ∧ t.CommandTrace tr

/-- A micro-operation leaves the command and its patterns, and the pins, alone. -/
theorem State.UopOutcome.command_eq {i : Instr} {s t : State} (h : s.UopOutcome i t) :
    t.pat = s.pat ∧ t.op = s.op ∧ t.pins = s.pins := by
  cases h with
  | completed u frame _ _ => simp [frame.control.pat, frame.control.op, frame.control.pins]
  | raised u e frame _ _ => exact ⟨frame.control.pat, frame.control.op, frame.control.pins⟩

/-- A micro-operation takes the trace of its command one call further, to its end, or to its failed call. -/
theorem State.CommandTrace.exec_uop {i : Instr} {s t : State} {tr : List Event} (htr : s.CommandTrace tr)
    (hs : s.Running) (hi : s.programInstr = some i) (h : exec i s = .next t) :
    ∃ e, t.trace = s.trace ++ [e] ∧ t.CommandTrace (tr ++ [e]) := by
  have hu := isUop_of_programInstr hi
  obtain ⟨e, htrace, hcall, hfail⟩ := exec_uop_logs hu hs.err h
  refine ⟨e, htrace, ?_⟩
  cases htr with
  | completed _ busy => simp [hs.busy] at busy
  | failed _ _ busy => simp [hs.busy] at busy
  | running _ _ calls ok =>
    have hcalls : (tr ++ [e]).map Event.call = (commandCalls s.pat s.op).take (s.upc.toNat + 1) := by
      rw [List.take_add_one, commandCalls_getElem? hi hcall, List.map_append, calls]
      rfl
    cases exec_uop_outcome hu h with
    | completed u frame _ _ =>
      have hc := frame.control
      have he : e.failed = false :=
        Bool.eq_false_iff.mpr (mt hfail.mp (advance_err_not_aborts (hc.err.trans hs.err)))
      have hok : ∀ x ∈ tr ++ [e], x.failed = false := by
        simpa [or_imp, forall_and, he] using ok
      rw [← hc.pat, ← hc.op, ← hc.upc] at hcalls
      obtain ⟨hne, ha⟩ | ⟨hend, ha⟩ := advance_cases u <;> rw [ha]
      · have hnext := toNat_upc_add_one (s := u) (by simpa only [hc.upc, hc.op] using hs.upc_lt)
        exact .running _ (hc.busy.trans hs.busy) (by simpa only [hnext] using hcalls) hok
      · refine .completed _ rfl rfl ?_ hok
        rw [hcalls, hend, ← commandCalls_length u.pat, List.take_length]
        rfl
    | raised u err frame _ haborts =>
      refine .failed tr e rfl haborts ?_ ok (hfail.mpr haborts)
      rw [hcalls, ← frame.control.pat, ← frame.control.op]
      exact List.take_prefix _ _

/-- A core left alone with its command goes on with it, or rests once it has ended. -/
theorem State.OnCommand.step_next {base : List Event} {calls : List Call} {s : State} (h : s.OnCommand base calls) :
    ∃ t, step s = .next t ∧ t.OnCommand base calls := by
  obtain ⟨hinv, hquiet, hcalls, tr, htrace, htr⟩ := h
  have ⟨hlegal, _, hslot⟩ := hinv
  cases hb : s.busy with
  | false => exact ⟨s, step_of_idle_quiet hquiet hslot hb, hinv, hquiet, hcalls, tr, htrace, htr⟩
  | true =>
    have hs := hlegal.running hb
    obtain ⟨i, hi⟩ := programInstr_legal hs.upc_lt
    have hu := isUop_of_programInstr hi
    obtain ⟨t, ht⟩ := hu.exec_next s
    have hstep : step s = .next t := by
      rw [step_of_busy_quiet hquiet hslot hb hi, ht]
    obtain ⟨e, he, hte⟩ := htr.exec_uop hs hi ht
    obtain ⟨hpat, hop, hpins⟩ := (exec_uop_outcome hu ht).command_eq
    exact ⟨t, hstep, stepKeepsTheInvariant s t hinv hstep, hpins.trans hquiet, by rw [hpat, hop, hcalls], tr ++ [e],
      by rw [he, htrace, List.append_assoc], hte⟩

/-- A command at its first micro-operation has an empty trace. -/
theorem onCommand_of_upc_zero {t : State} (hinv : t.Inv) (hquiet : t.pins = []) (hb : t.busy = true)
    (hu : t.upc = 0) : t.OnCommand t.trace (commandCalls t.pat t.op) :=
  ⟨hinv, hquiet, rfl, [], (List.append_nil _).symm, .running [] hb (by simp [hu]) (by simp)⟩

/-- The step that accepts a command leaves the core alone with it, on the patterns given (R255, R256). -/
theorem State.CommandGiven.step_next {s : State} {p : Pins} {o : Op} (h : s.CommandGiven p o) :
    ∃ t, step s = .next t ∧ t.OnCommand s.trace (commandCalls (unpackPort p.patIn) o) := by
  have ⟨hinv, _, hpins, _⟩ := h
  have hquiet : s.fetched.pins = [] := by simp [hpins]
  cases o with
  | read =>
    have hstep := step_of_given_read h
    exact ⟨_, hstep, onCommand_of_upc_zero (stepKeepsTheInvariant _ _ hinv hstep) hquiet rfl rfl⟩
  | rewrite =>
    have hstep := step_of_given_rewrite h
    exact ⟨_, hstep, onCommand_of_upc_zero (stepKeepsTheInvariant _ _ hinv hstep) hquiet rfl rfl⟩

/-- A command that aborted is not valid (R37). -/
theorem State.Legal.valid_of_aborts {s : State} (h : s.Legal) (he : s.err.Aborts) : s.valid = false := by
  obtain ⟨-, -, -, -, -, haborts, -⟩ := h
  exact (haborts he).2

/-- What the flags of a legal core say of its command's trace (R37, R38, R75). -/
theorem State.CommandTrace.flags {t : State} {tr : List Event} (h : t.CommandTrace tr) (hlegal : t.Legal) :
    tr.map Event.call <+: commandCalls t.pat t.op ∧
    (∀ e ∈ tr.dropLast, e.failed = false) ∧
    (t.valid = true ↔ tr.map Event.call = commandCalls t.pat t.op ∧ ∀ e ∈ tr, e.failed = false) ∧
    (t.err.Aborts ↔ ∃ e ∈ tr, e.failed = true) ∧
    (t.busy = false → t.valid = true ∨ ∃ e ∈ tr, e.failed = true) := by
  cases h with
  | running _ busy calls ok =>
    have hr := hlegal.running busy
    have hshort : tr.map Event.call ≠ commandCalls t.pat t.op := by
      intro hfull
      have hlen : progLen t.op ≤ t.upc.toNat := by simpa using congrArg List.length (calls.symm.trans hfull)
      exact absurd hr.upc_lt (by omega)
    exact ⟨calls ▸ List.take_prefix _ _, fun e he => ok e (List.mem_of_mem_dropLast he),
      iff_of_false (by simp [hr.valid]) (fun hfull => hshort hfull.1),
      iff_of_false (by simp [hr.err, ErrCode.Aborts]) (by simpa using ok), by simp [busy]⟩
  | completed _ busy valid calls ok =>
    have herr : ¬ t.err.Aborts := mt hlegal.valid_of_aborts (by simp [valid])
    exact ⟨calls ▸ List.prefix_rfl, fun e he => ok e (List.mem_of_mem_dropLast he),
      iff_of_true valid ⟨calls, ok⟩, iff_of_false herr (by simpa using ok), fun _ => .inl valid⟩
  | failed pre e busy err calls ok fails =>
    have hmem : ∃ x ∈ pre ++ [e], x.failed = true := ⟨e, by simp, fails⟩
    have hvalid := hlegal.valid_of_aborts err
    exact ⟨calls, by simpa using ok, iff_of_false (by simp [hvalid]) (by simp [fails]), iff_of_true err hmem,
      fun _ => .inr hmem⟩

/-- Settles O44: the accepted command and every step after it keep `State.OnCommand`, which says how far the trace is;
the flags follow from it. -/
theorem traceIsPrefixOfItsProgram : Obligations.TraceIsPrefixOfItsProgram := by
  intro s p o n hgiven
  obtain ⟨u, hu, hon⟩ := hgiven.step_next
  obtain ⟨t, ht, hinv, -, hcalls, tr, htrace, htr⟩ := runSteps_of_step_keeps (fun _ h => h.step_next) n hon
  obtain ⟨hlegal, -⟩ := hinv
  have hflags := htr.flags hlegal
  rw [hcalls] at hflags
  exact ⟨t, by simp only [runSteps, hu, ht], tr, htrace, hflags⟩

end Sys2Proof.Machine
end

section
/-! ### The decoder and the encoder -/

namespace Sys2Proof

/-- Settles O1: the round trips of the sixteen instructions, each for every operand (`Laws.RoundTrip`). -/
theorem everyInstructionRoundTrips : Obligations.EveryInstructionRoundTrips := by
  intro i
  cases i with
  | nop => exact Laws.RoundTrip.nop
  | read => exact Laws.RoundTrip.read
  | rewrite p => exact Laws.RoundTrip.rewrite p
  | reservedCmd => exact Laws.RoundTrip.reservedCmd
  | reset => exact Laws.RoundTrip.reset
  | wbyte v => exact Laws.RoundTrip.wbyte v
  | wbit b => exact Laws.RoundTrip.wbit b
  | wbitp k j => exact Laws.RoundTrip.wbitp k j
  | rbyte d k => exact Laws.RoundTrip.rbyte d k
  | wait10 => exact Laws.RoundTrip.wait10
  | owReadRom => exact Laws.RoundTrip.owReadRom
  | owWriteEnable => exact Laws.RoundTrip.owWriteEnable
  | owWriteDisable => exact Laws.RoundTrip.owWriteDisable
  | owWriteData => exact Laws.RoundTrip.owWriteData
  | romread d => exact Laws.RoundTrip.romread d
  | codec k => exact Laws.RoundTrip.codec k

/-- The `d` bit of the destination a bit names is the bit (R96). -/
@[simp] theorem destOfBit_bit (b : Bool) : (destOfBit b).bit = b := by
  cases b <;> rfl

@[simp] theorem ofIndex_toIndex (w : BitVec 3) : ofIndex (toIndex w) = w := rfl

/-- One bit of a word, as a word of one bit. -/
theorem ofBool_getLsbD {n : Nat} (w : BitVec n) (j : Nat) : BitVec.ofBool (w.getLsbD j) = w.extractLsb' j 1 := by
  ext i hi
  obtain rfl : i = 0 := by omega
  simp

/-- A WBIT argument is its must-be-zero bits and `b` (R96). -/
theorem wbit_arg {a : BitVec 8} (h : a.extractLsb' 1 7 = 0#7) : 0#7 ++ BitVec.ofBool (a.getLsbD 0) = a := by
  rw [← h, ofBool_getLsbD]
  exact BitVec.extractLsb'_append_extractLsb'

/-- A WBITP argument is its must-be-zero bits, `k` and `i` (R96). -/
theorem wbitp_arg {a : BitVec 8} (h : a.extractLsb' 6 2 = 0#2) :
    0#2 ++ (a.extractLsb' 3 3 ++ a.extractLsb' 0 3) = a := by
  rw [← h, BitVec.extractLsb'_append_extractLsb'_eq_extractLsb' (by rfl)]
  exact BitVec.extractLsb'_append_extractLsb'

/-- An RBYTE argument is its must-be-zero bits, `d` and `k` (R96). -/
theorem rbyte_arg {a : BitVec 8} (h : a.extractLsb' 4 4 = 0#4) :
    0#4 ++ (BitVec.ofBool (a.getLsbD 3) ++ a.extractLsb' 0 3) = a := by
  rw [← h, ofBool_getLsbD, BitVec.extractLsb'_append_extractLsb'_eq_extractLsb' (by rfl)]
  exact BitVec.extractLsb'_append_extractLsb'

/-- A UOP word is its kind and its argument (R93). -/
theorem uopWord_fields (w : BitVec 11) : uopWord (w.extractLsb' 8 3) (w.extractLsb' 0 8) = w :=
  BitVec.extractLsb'_append_extractLsb'

/-- A UOP word that decodes is the encoding of what it decodes to, kind by kind (R93, R96, R97). -/
theorem encode_of_decodeUop {w : BitVec 11} {i : Instr} (h : decodeUop w = .ok i) : encode i = .uop w := by
  rw [← uopWord_fields w]
  simp only [decodeUop] at h
  generalize w.extractLsb' 8 3 = kind at h ⊢
  generalize w.extractLsb' 0 8 = arg at h ⊢
  split_ifs at h with hk harg hk hk harg hk harg hk harg hk harg <;> cases h <;> subst hk
  · exact congrArg (fun a => CodeWord.uop (uopWord 0b000 a)) harg.symm
  · rfl
  · exact congrArg (fun a => CodeWord.uop (uopWord 0b010 a)) (wbit_arg harg)
  · exact congrArg (fun a => CodeWord.uop (uopWord 0b011 a)) (wbitp_arg harg)
  · simp only [encode, destOfBit_bit]
    exact congrArg (fun a => CodeWord.uop (uopWord 0b100 a)) (rbyte_arg harg)
  · exact congrArg (fun a => CodeWord.uop (uopWord 0b101 a)) harg.symm

/-- A BUSCMD8 word that decodes is one of the two rows (R101, R103). -/
theorem encode_of_decodeBus8 {w : BitVec 8} {i : Instr} (h : decodeBus8 w = .ok i) : encode i = .bus8 w := by
  simp only [decodeBus8] at h
  split_ifs at h <;> cases h <;> subst w <;> rfl

/-- A BUSCMD9 word that decodes is one of the two rows (R102). -/
theorem encode_of_decodeBus9 {w : BitVec 9} {i : Instr} (h : decodeBus9 w = .ok i) : encode i = .bus9 w := by
  simp only [decodeBus9] at h
  split_ifs at h <;> cases h <;> subst w <;> rfl

/-- Settles O2, format by format; the pseudo-instructions' words hold their operand and nothing else. -/
theorem decodedWordsAreEncodings : Obligations.DecodedWordsAreEncodings := by
  intro c i hc h
  cases c with
  | host w => exact absurd rfl (hc w)
  | uop w => exact encode_of_decodeUop h
  | bus8 w => exact encode_of_decodeBus8 h
  | bus9 w => exact encode_of_decodeBus9 h
  | romread w =>
    cases h
    simp only [encode, destOfBit_bit, ofBool_getLsbD]
    exact congrArg _ BitVec.extractLsb'_eq_self
  | codec w =>
    cases h
    rfl

/-- Settles O4: each word is the encoding of its instruction, so it decodes to it (`everyInstructionRoundTrips`). -/
theorem specWordsDecode : Obligations.SpecWordsDecode := by
  have h := everyInstructionRoundTrips
  exact ⟨h .reset, h (.wbyte 0x33), h (.wbyte 0xD5), h (.wbit true), h (.wbitp 1 3), h (.rbyte .oldcode 2),
    h (.rbyte .romcode 7), h .wait10, h .owReadRom, h .owWriteEnable, h .owWriteDisable, h .owWriteData⟩

/-- A HOSTCMD word decodes by its command field alone, but for the patterns of a REWRITE (R91). -/
theorem decode_hostWord (cmd : BitVec 2) (p : BitVec 64) : decode (.host (hostWord cmd p)) =
    .ok (if cmd = 0b00#2 then .nop else if cmd = 0b01#2 then .read else if cmd = 0b10#2 then .rewrite p
      else .reservedCmd) := by
  simp only [decode, decodeHost, hostWord_cmd, hostWord_patIn]

/-- Settles O5, from the fields of a HOSTCMD word. -/
theorem hostCommandTable : Obligations.HostCommandTable := fun p =>
  ⟨decode_hostWord 0b00 p, decode_hostWord 0b01 p, decode_hostWord 0b10 p, decode_hostWord 0b11 p⟩

/-- Settles O38: both transforms are the complement, which undoes itself (R104). -/
theorem patternTransformIsComplement : Obligations.PatternTransformIsComplement := fun _ =>
  ⟨rfl, rfl, BitVec.not_not, BitVec.not_not⟩

end Sys2Proof
end

section
/-! ### The fetch: where a step's word comes from, and what it runs -/

namespace Sys2Proof.Machine

/-- Outside `rst` a step decodes the next word and runs it, the pins past and the slot empty (log 5). -/
theorem step_of_decode {s : State} {c : CodeWord} {i : Instr} (hrst : s.pinsNow.rst = false)
    (hw : s.nextWord = some c) (hd : decode c = .ok i) : step s = exec i s.fetched := by
  simp [step, hrst, runNext, hw, runWord, hd]

theorem nextWord_of_slot {s : State} {c : CodeWord} (h : s.slot = some c) : s.nextWord = some c := by
  simp [State.nextWord, h]

theorem nextWord_of_busy {s : State} (hslot : s.slot = none) (hb : s.busy = true) :
    s.nextWord = s.programWord.map .uop := by
  simp [State.nextWord, hslot, hb]

theorem nextWord_of_idle {s : State} (hslot : s.slot = none) (hb : s.busy = false) :
    s.nextWord = some (.host s.pinsNow.word) := by
  simp [State.nextWord, hslot, hb]

/-- A tick of an idle core runs the command at the pins on the released line (R151, R252). -/
theorem tick_of_idle (T : Timing) {x : TickIn} {s : State} (hrst : x.pins.rst = false) (hb : s.busy = false) :
    tick T x s = exec (decodeHost x.pins.word) { s with oe := false } := by
  simp [tick, hrst, hb, tickIdle]

/-- A tick of a running core is one of the line operation of `prog(OP)[UPC]` (R153, R170). -/
theorem tick_of_busy (T : Timing) {x : TickIn} {s : State} {i : Instr} {o : LineOp} (hrst : x.pins.rst = false)
    (hb : s.busy = true) (hi : s.programInstr = some i) (ho : lineOp i s = some o) :
    tick T x s = .next (tickLine T x.owIn i o s) := by
  simp [tick, hrst, hb, tickBusy, hi, ho]

theorem programInstr_of_word {s : State} {w : BitVec 11} {i : Instr} (hw : s.programWord = some w)
    (hd : decodeUop w = .ok i) : s.programInstr = some i := by
  simp [State.programInstr, hw, hd, Decoded.toOption]

/-- Settles O11, source by source and level by level. -/
theorem stepRunsTheDecodedInstruction : Obligations.StepRunsTheDecodedInstruction := by
  refine ⟨fun s c i => step_of_decode, fun s c => nextWord_of_slot, fun s => nextWord_of_busy, ?_, ?_, ?_, ?_⟩
  · intro s p l hslot hb hp
    rw [nextWord_of_idle hslot hb, pinsNow_cons hp]
    rfl
  · intro s hslot hb hp
    rw [nextWord_of_idle hslot hb, pinsNow_nil hp]
    exact ⟨rfl, rfl⟩
  · intro T x s i hrst hb hd
    rw [tick_of_idle T hrst hb]
    cases hd
    rfl
  · intro T x s w i o hrst hb hw hd ho
    exact tick_of_busy T hrst hb (programInstr_of_word hw hd) ho

/-- A step refuses a word the decoder rejects (U6). -/
theorem step_of_rejected {s : State} {c : CodeWord} {r : DecodeReject} (hrst : s.pinsNow.rst = false)
    (hw : s.nextWord = some c) (hd : decode c = .rejected r) : step s = .refused (.undecodable r) := by
  simp [step, hrst, runNext, hw, runWord, hd]

/-- Settles O3: the decoder's branches for the reserved words, kind by kind, and the step that meets one in the slot. -/
theorem reservedWordsRefused : Obligations.ReservedWordsRefused := by
  refine ⟨?_, ?_, ?_, ?_, ?_, fun s c r hrst hslot => step_of_rejected hrst (nextWord_of_slot hslot)⟩
  · rintro w (h | h) <;> simp [decode, decodeUop, h]
  · rintro w (h | h) hz <;> simp [decode, decodeUop, h, hz]
  · intro w h hz
    simp [decode, decodeUop, h, hz]
  · intro w h hz
    simp [decode, decodeUop, h, hz]
  · intro w h hz
    simp [decode, decodeUop, h, hz]

/-- The pins that present a HOSTCMD word hold it (R91). -/
theorem ofWord_word (w : BitVec 66) : (Pins.ofWord w).word = w := by
  simp only [Pins.word, Pins.ofWord, hostWord, ofBool_getLsbD,
    BitVec.extractLsb'_append_extractLsb'_eq_extractLsb' (show 65 = 64 + 1 by rfl)]
  exact BitVec.extractLsb'_append_extractLsb'

/-- A HOSTCMD word placed is what the next step of the idle core runs (log 5). -/
theorem step_placeWord_host (s : State) {x : BitVec 66} {i : Instr} (hd : decode (.host x) = .ok i) :
    step (s.placeWord (.host x)) = exec i { s with slot := none, busy := false } := by
  have hw : (s.placeWord (.host x)).nextWord = some (.host x) := by
    rw [nextWord_of_idle rfl rfl, pinsNow_cons rfl, ofWord_word]
  rw [step_of_decode rfl hw hd]
  rfl

/-- Any other word placed is what the next step of the running core runs (log 5). -/
theorem step_placeWord_slot (s : State) {c : CodeWord} {i : Instr} (hc : ∀ x, c ≠ .host x) (hd : decode c = .ok i) :
    step (s.placeWord c) = exec i { s with slot := none, busy := true } := by
  cases c with
  | host x => exact absurd rfl (hc x)
  | _ =>
    rw [step_of_decode rfl (nextWord_of_slot rfl) hd]
    rfl

/-- A table word that decodes is a word of its format that decodes (log 6). -/
theorem decode_of_decodeTableWord {nbits w : Nat} {c : CodeWord} {i : Instr} (ht : tableWord nbits w = some c)
    (h : decodeTableWord nbits w = some i) : decode c = .ok i := by
  simp only [decodeTableWord, ht, Option.bind_some] at h
  cases hd : decode c <;> simp_all [Decoded.toOption]

/-- Placing a table word places the word of its format (log 5). -/
theorem withFetchWord_of_tableWord (s : State) {nbits w : Nat} {c : CodeWord} (ht : tableWord nbits w = some c) :
    s.withFetchWord nbits w = s.placeWord c := by
  simp only [State.withFetchWord, State.placeTableWord, ht]

/-- Settles O12: the table word is a word of its format, which the placing puts where the next step looks. -/
theorem placedWordRunsNext : Obligations.PlacedWordRunsNext := by
  constructor
  · intro s nbits w x i ht hi
    rw [withFetchWord_of_tableWord s ht, step_placeWord_host s (decode_of_decodeTableWord ht hi)]
  · intro s nbits w c i ht hc hi
    rw [withFetchWord_of_tableWord s ht, step_placeWord_slot s hc (decode_of_decodeTableWord ht hi)]

end Sys2Proof.Machine
end

section
/-! ### Frames that complete: the write slots -/

namespace Sys2Proof.Machine

/-- A completed micro-operation short of the program's end hands on to the next of its run (R120). -/
theorem runSeq_next {f : State → Flow} {rest : List (State → Flow)} {s t : State} (h : f s = .ok t)
    (hlt : t.upc.toNat + 1 < progLen t.op) : runSeq (f :: rest) s = runSeq rest { t with upc := t.upc + 1 } := by
  obtain ⟨-, ha⟩ | ⟨hend, -⟩ := advance_cases t
  · rw [runSeq_ok h (by simp [State.atEnd, hlt.ne]), ha]
  · exact absurd hend hlt.ne

/-- The last micro-operation of a run ends it as it ends by itself (R120). -/
theorem runSeq_singleton (f : State → Flow) (s : State) : runSeq [f] s = (f s).finish := by
  cases h : f s with
  | ok t =>
    cases he : t.atEnd with
    | true => rw [runSeq_end h he, Flow.finish_ok]
    | false => rw [runSeq_ok h he, runSeq_nil, Flow.finish_ok]
  | raised e t => rw [runSeq_raised h, Flow.finish_raised]

/-- A single-bit write with an Ok answer listed (R122, R123). -/
theorem uopWbit_listed (b : Bool) {s : State} {l : List WriteAnswer} (h : s.ansWrite = .ok :: l) :
    uopWbit b s = .ok { s with
      ansWrite := l, wire := s.wire ++ [.w b], trace := s.trace ++ [.wbit b none] } := by
  rw [uopWbit_ok (writeAnswer_cons s b _ _ h), dropWrite_cons s _ _ h]
  rfl

/-- A wait short of the program's end (R131). -/
theorem runSeq_wait (rest : List (State → Flow)) {s : State} (hlt : s.upc.toNat + 1 < progLen s.op) :
    runSeq (uopWait10 :: rest) s = runSeq rest { s with upc := s.upc + 1, trace := s.trace ++ [.wait10] } :=
  runSeq_next rfl hlt

/-- A single-bit write and the wait after it, short of the program's end (R102, R191). -/
theorem runSeq_wbit_wait (b : Bool) (rest : List (State → Flow)) {s : State} {l : List WriteAnswer}
    (h : s.ansWrite = .ok :: l) (hlt : s.upc.toNat + 2 < progLen s.op) :
    runSeq (uopWbit b :: uopWait10 :: rest) s = runSeq rest { s with
      upc := s.upc + 2, ansWrite := l, wire := s.wire ++ [.w b], trace := s.trace ++ [.wbit b none, .wait10] } := by
  have hnext := toNat_upc_add_one (s := s) (by omega)
  rw [runSeq_next (uopWbit_listed b h) (by change s.upc.toNat + 1 < progLen s.op; omega),
    runSeq_wait rest (by change (s.upc + 1).toNat + 1 < progLen s.op; omega)]
  simp [BitVec.add_assoc]

/-- A byte short of the program's end (R125). -/
theorem runSeq_wbyte (v : Byte) (rest : List (State → Flow)) {s : State} {l : List WriteAnswer}
    (h : s.ansWrite = List.replicate 8 .ok ++ l) (hlt : s.upc.toNat + 1 < progLen s.op) :
    runSeq (uopWbyte v :: rest) s = runSeq rest { s with
      upc := s.upc + 1, ansWrite := l, biti := 0, wire := s.wire ++ (byteBits v).map .w,
      trace := s.trace ++ [.wbyte v none] } :=
  runSeq_next (uopWbyte_ok v s l h) hlt

/-- The two write control frames, by the `arm` bit (R102). -/
theorem runSeq_writeControl (arm : Bool) {s : State} {l : List WriteAnswer}
    (h : s.ansWrite = List.replicate 9 .ok ++ l) (hlt : s.upc.toNat + 3 < progLen s.op) :
    runSeq (writeControlSeq arm) s = { s with
      upc := s.upc + 3, ansWrite := l, biti := 0,
      wire := s.wire ++ ([true, false, false, false, true, false, true, true] ++ [arm]).map .w,
      trace := s.trace ++ [.wbyte 0xD1 none, .wbit arm none, .wait10] } := by
  have hnext := toNat_upc_add_one (s := s) (by omega)
  have hbits : byteBits 0xD1 = [true, false, false, false, true, false, true, true] := by decide
  rw [writeControlSeq, runSeq_wbyte (l := .ok :: l) _ _ h (by omega),
    runSeq_wbit_wait arm [] rfl (by change (s.upc + 1).toNat + 2 < progLen s.op; omega), runSeq_nil, hbits]
  simp [BitVec.add_assoc]

/-- Settles O26: the two frames differ in the `arm` bit only. -/
theorem writeControlFramesSendNineBits : Obligations.WriteControlFramesSendNineBits := fun _ _ h hlt =>
  ⟨congrArg Host.Outcome.next (runSeq_writeControl false h hlt),
    congrArg Host.Outcome.next (runSeq_writeControl true h hlt)⟩

/-- WBITP k,i and a wait, for each pattern bit `(k, i)` of a list (R191). -/
def patternSlots (ps : List (Fin 8 × Fin 8)) : List (State → Flow) :=
  ps.flatMap fun p => [uopWbitp p.1 p.2, uopWait10]

/-- The 64 pattern bits in the order they go out (R64, R103). -/
def patternOrder : List (Fin 8 × Fin 8) := indices.flatMap fun k => indices.map fun i => (k, i)

/-- CODEC k is the pattern slots of its byte (R191). -/
theorem codecSeq_eq (k : Fin 8) : codecSeq k = patternSlots (indices.map fun i => (k, i)) := by
  simp only [codecSeq, patternSlots, List.flatMap_map]

/-- OW_WRITE_DATA is its command byte and the 64 pattern slots (R103). -/
theorem writeDataSeq_eq : writeDataSeq = uopWbyte 0xD5 :: patternSlots patternOrder := by
  simp only [writeDataSeq, funext codecSeq_eq, patternSlots, patternOrder, List.flatMap_assoc]

/-- Pattern slots that all complete short of the program's end (R129, R131, R191). -/
theorem runSeq_patternSlots (ps : List (Fin 8 × Fin 8)) {s : State} {l : List WriteAnswer}
    (h : s.ansWrite = List.replicate ps.length .ok ++ l) (hlt : s.upc.toNat + 2 * ps.length < progLen s.op) :
    runSeq (patternSlots ps) s = { s with
      upc := s.upc + BitVec.ofNat 8 (2 * ps.length), ansWrite := l,
      wire := s.wire ++ ps.map fun p => .w (patBit s.pat p.1 p.2),
      trace := s.trace ++ ps.flatMap fun p => [.wbit (patBit s.pat p.1 p.2) none, .wait10] } := by
  induction ps generalizing s with
  | nil =>
    simp only [List.length_nil, List.replicate_zero, List.nil_append] at h
    simp [patternSlots, ← h]
  | cons p ps ih =>
    simp only [List.length_cons] at h hlt
    have hlen := progLen_le s.op
    have hnext : (s.upc + 2).toNat = s.upc.toNat + 2 := by bv_omega
    refine (runSeq_wbit_wait (patBit s.pat p.1 p.2) (patternSlots ps) h (by omega)).trans ((ih rfl ?_).trans ?_)
    · change (s.upc + 2).toNat + 2 * ps.length < progLen s.op
      omega
    · simp [BitVec.add_assoc, Nat.mul_add, BitVec.ofNat_add, BitVec.add_comm 2#8]

/-- Settles O27: the byte 0xD5, then the 64 pattern slots (`runSeq_patternSlots`). -/
theorem writeDataFrameSendsThePatterns : Obligations.WriteDataFrameSendsThePatterns := by
  intro s l h hlt
  have hnext := toNat_upc_add_one (s := s) (by omega)
  have hbits : byteBits 0xD5 = [true, false, true, false, true, false, true, true] := by decide
  have hlen : patternOrder.length = 64 := by decide
  change Host.Outcome.next (runSeq writeDataSeq s) = _
  rw [writeDataSeq_eq, runSeq_wbyte (l := List.replicate 64 .ok ++ l) _ _ h (by omega),
    runSeq_patternSlots patternOrder (l := l) rfl
      (by change (s.upc + 1).toNat + 2 * patternOrder.length < progLen s.op; omega), hlen, hbits]
  simp [BitVec.add_assoc, patternOrder, patBit, List.map_flatMap, List.flatMap_assoc, List.flatMap_map,
    Function.comp_def]

end Sys2Proof.Machine
end

section
/-! ### Frames that complete: the read bytes -/

namespace Sys2Proof.Machine

/-- The file `d` names (R96). -/
def State.file (s : State) (d : Dest) : Bytes8 :=
  match d with
  | .romcode => s.romcode
  | .oldcode => s.oldcode

@[simp] theorem State.storeByte_file (s : State) (d : Dest) (k : Fin 8) (v : Byte) :
    (s.storeByte d k v).file d = (s.file d).set k v := by
  cases d <;> rfl

@[simp] theorem State.logCall_file (s : State) (e : Event) (d : Dest) : (s.logCall e).file d = s.file d := by
  cases d <;> rfl

@[simp] theorem State.advance_file (s : State) (d : Dest) : s.advance.file d = s.file d := by
  cases d <;> simp [State.file]

/-- The answers of byte `k` among the answers `bits`, eight a byte. -/
def byteAnswers (bits : List Bool) (k : Nat) : List Bool := (bits.drop (8 * k)).take 8

theorem byteAnswers_length {bits : List Bool} {k : Nat} (h : 8 * (k + 1) ≤ bits.length) :
    (byteAnswers bits k).length = 8 := by
  simp only [byteAnswers, List.length_take, List.length_drop]
  omega

theorem byteAnswers_getElem? (bits : List Bool) (k : Nat) (i : Fin 8) :
    (byteAnswers bits k)[i.val]? = bits[8 * k + i.val]? := by
  simp [byteAnswers]

theorem take_byteAnswers (bits : List Bool) (k : Nat) :
    bits.take (8 * k) ++ byteAnswers bits k = bits.take (8 * (k + 1)) :=
  List.take_add.symm

/-- The bits of the byte assembled from its answers are the answers (R63, R127). -/
theorem assemble_byteAnswers {bits : List Bool} {k : Nat} (h : 8 * (k + 1) ≤ bits.length) (i : Fin 8) :
    bits[8 * k + i.val]? = some ((assemble (byteAnswers bits k)).getLsbD i.val) := by
  rw [← byteBits_getElem?, byteBits_assemble (byteAnswers_length h), byteAnswers_getElem?]

/-- Listed read answers from byte `k` on are those of byte `k`, then those from the next byte on. -/
theorem drop_listed_answers {bits : List Bool} {k : Nat} (h : 8 * (k + 1) ≤ bits.length) (l : List ReadAnswer) :
    (bits.map ReadAnswer.bit ++ l).drop (8 * k) =
      (byteAnswers bits k).map .bit ++ (bits.map ReadAnswer.bit ++ l).drop (8 * (k + 1)) := by
  rw [List.drop_append_of_le_length (by simp; omega), List.drop_append_of_le_length (by simpa using h),
    ← List.append_assoc, ← List.map_drop, ← List.map_drop, ← List.map_append, Nat.mul_succ, ← List.drop_drop,
    byteAnswers, List.take_append_drop]

/-- On the way from `s` to `u`, RBYTE d,0 to d,n-1 have completed on the answers `bits`, eight a byte (R127). -/
structure State.BytesRead (d : Dest) (bits : List Bool) (n : Nat) (s u : State) : Prop where
  bytes : ∀ k i : Fin 8, k.val < n → bits[8 * k.val + i.val]? = some ((u.file d)[k].getLsbD i.val)
  romcode : d = .oldcode → u.romcode = s.romcode
  oldcode : d = .romcode → u.oldcode = s.oldcode ∧ u.oldvalid = s.oldvalid
  oldvalid : d = .oldcode → n = 8 → u.oldvalid = true
  wire : u.wire = s.wire ++ (bits.take (8 * n)).map .r
  trace : ∃ tr, u.trace = s.trace ++ tr ∧ tr.map Event.call = List.replicate n .rbyte
  ansRead : u.ansRead = s.ansRead.drop (8 * n)
  pat : u.pat = s.pat
  op : u.op = s.op
  ansReset : u.ansReset = s.ansReset
  ansWrite : u.ansWrite = s.ansWrite

theorem State.BytesRead.refl (d : Dest) (bits : List Bool) (s : State) : s.BytesRead d bits 0 s := by
  constructor <;> simp

theorem State.BytesRead.advance {d : Dest} {bits : List Bool} {n : Nat} {s u : State} (h : s.BytesRead d bits n u) :
    s.BytesRead d bits n u.advance := by
  obtain ⟨hbytes, hrom, hold, hvalid, hwire, htrace, hans, hpat, hop, hreset, hwrite⟩ := h
  constructor <;> simp_all

/-- The next byte of the eight (R127). -/
theorem State.BytesRead.uopRbyte {d : Dest} {bits : List Bool} {k : Fin 8} {s u : State} {l : List ReadAnswer}
    (h : s.BytesRead d bits k.val u) (hb : bits.length = 64) (hs : s.ansRead = bits.map .bit ++ l) :
    ∃ v, uopRbyte d k u = .ok v ∧ s.BytesRead d bits (k.val + 1) v ∧ u.SameControl v := by
  obtain ⟨hbytes, hrom, hold, hvalid, hwire, ⟨tr, htr, hcalls⟩, hans, hpat, hop, hreset, hwrite⟩ := h
  have hlen : 8 * (k.val + 1) ≤ bits.length := by omega
  have hlisted : u.ansRead = (byteAnswers bits k.val).map .bit ++ s.ansRead.drop (8 * (k.val + 1)) := by
    rw [hans, hs, drop_listed_answers hlen]
  refine ⟨_, uopRbyte_ok d k _ (byteAnswers_length hlen) u _ hlisted, ?_, by simp⟩
  constructor
  case bytes =>
    intro j i hj
    simp only [State.logCall_file, State.storeByte_file]
    obtain rfl | hne := eq_or_ne k j
    · simpa using assemble_byteAnswers hlen i
    · have hlt : j.val < k.val := by omega
      simpa [Fin.val_ne_of_ne hne, State.file] using hbytes j i hlt
  case wire => simp [hwire, ← take_byteAnswers]
  case trace =>
    exact ⟨tr ++ [.rbyte (assemble (byteAnswers bits k.val))], by simp [htr],
      by simp [hcalls, Event.call, List.replicate_succ']⟩
  case romcode =>
    rintro rfl
    exact hrom rfl
  case oldcode =>
    rintro rfl
    exact hold rfl
  case oldvalid =>
    rintro rfl h8
    obtain rfl : k = 7 := by omega
    simp
  all_goals simp [*]

theorem readBytesSeq_drop (d : Dest) (k : Fin 8) :
    (readBytesSeq d).drop k.val = uopRbyte d k :: (readBytesSeq d).drop (k.val + 1) := by
  fin_cases k <;> rfl

section
variable {d : Dest} {bits : List Bool} {s : State} {l : List ReadAnswer}
  (hb : bits.length = 64) (hs : s.ansRead = bits.map .bit ++ l)
include hb hs

/-- The first `n` of eight bytes, short of the program's end. -/
theorem runSeq_readBytes_drop (n : Nat) (hn : n < 8) (hlt : s.upc.toNat + n < progLen s.op) :
    ∃ u, runSeq (readBytesSeq d) s = runSeq ((readBytesSeq d).drop n) u ∧ s.BytesRead d bits n u ∧
      u.upc = s.upc + BitVec.ofNat 8 n ∧ u.busy = s.busy ∧ u.done = s.done := by
  induction n with
  | zero => exact ⟨s, rfl, .refl d bits s, by simp, rfl, rfl⟩
  | succ n ih =>
    obtain ⟨u, hu, hread, hupc, hbusy, hdone⟩ := ih (by omega) (by omega)
    obtain ⟨v, hv, hread', hc⟩ := hread.uopRbyte (k := ⟨n, by omega⟩) hb hs
    have hlen := progLen_le s.op
    have hvupc : v.upc.toNat = s.upc.toNat + n := by
      rw [hc.upc, hupc]
      bv_omega
    have hend : v.atEnd = false := by
      rw [State.atEnd, beq_eq_false_iff_ne, hvupc, hread'.op]
      omega
    refine ⟨v.advance, ?_, hread'.advance, ?_, ?_, ?_⟩
    · rw [hu, readBytesSeq_drop d ⟨n, by omega⟩, runSeq_ok hv hend]
    · simp [hend, hc.upc, hupc, BitVec.add_assoc, BitVec.ofNat_add]
    · simp [hend, hc.busy, hbusy]
    · simp [hend, hc.done, hdone]

/-- Eight bytes into the file `d` (R101, R200): the run ends as its last RBYTE does. -/
theorem runSeq_readBytes (hlt : s.upc.toNat + 8 ≤ progLen s.op) :
    ∃ v, runSeq (readBytesSeq d) s = v.advance ∧ s.BytesRead d bits 8 v ∧
      v.upc = s.upc + 7 ∧ v.busy = s.busy ∧ v.done = s.done := by
  obtain ⟨u, hu, hread, hupc, hbusy, hdone⟩ := runSeq_readBytes_drop (d := d) hb hs 7 (by omega) (by omega)
  obtain ⟨v, hv, hread', hc⟩ := hread.uopRbyte (k := 7) hb hs
  refine ⟨v, ?_, hread', hc.upc.trans hupc, hc.busy.trans hbusy, hc.done.trans hdone⟩
  rw [hu, show (readBytesSeq d).drop 7 = [uopRbyte d 7] from rfl, runSeq_singleton, hv, Flow.finish_ok]

end

/-- The byte 0x33, then eight bytes into the file `d` (R101, R200). -/
theorem runSeq_readRom {d : Dest} {bits : List Bool} {s : State} {lw : List WriteAnswer} {lr : List ReadAnswer}
    (hb : bits.length = 64) (hw : s.ansWrite = List.replicate 8 .ok ++ lw) (hr : s.ansRead = bits.map .bit ++ lr)
    (hlen : s.upc.toNat + 9 ≤ progLen s.op) :
    ∃ v, runSeq (readRomSeq d) s = v.advance ∧ State.BytesRead d bits 8 { s with
        upc := s.upc + 1, ansWrite := lw, biti := 0,
        wire := s.wire ++ [true, true, false, false, true, true, false, false].map .w,
        trace := s.trace ++ [.wbyte 0x33 none] } v ∧
      v.upc = s.upc + 8 ∧ v.busy = s.busy ∧ v.done = s.done := by
  have hnext := toNat_upc_add_one (s := s) (by omega)
  have hbits : byteBits 0x33 = [true, true, false, false, true, true, false, false] := by decide
  have hcommand := runSeq_wbyte 0x33 (readBytesSeq d) hw (by omega)
  rw [hbits] at hcommand
  rw [readRomSeq, hcommand]
  refine (runSeq_readBytes (l := lr) hb ?_ ?_).imp fun v ⟨hv, hread, hupc, hkept⟩ => ⟨hv, hread, ?_, hkept⟩
  · exact hr
  · change (s.upc + 1).toNat + 8 ≤ progLen s.op
    omega
  · simp [hupc, BitVec.add_assoc]

/-- Settles O28: the byte 0x33 and the eight bytes (`runSeq_readRom`), the last of which may end the program. -/
theorem readRomFrameReadsEightBytes : Obligations.ReadRomFrameReadsEightBytes := by
  intro s bits lw lr hb hw hr hlen
  have hle := progLen_le s.op
  obtain ⟨v, hv, hread, hupc, hbusy, hdone⟩ := runSeq_readRom (d := s.frameDest) hb hw hr hlen
  have hend : v.atEnd = decide (s.upc.toNat + 9 = progLen s.op) := by
    have hvupc : v.upc.toNat = s.upc.toNat + 8 := by bv_omega
    simp only [State.atEnd, hvupc, hread.op]
    rfl
  obtain ⟨hbytes, hrom, hold, -, hwire, -, hans, hpat, hop, hreset, hwrite⟩ := hread.advance
  refine ⟨v.advance, congrArg Host.Outcome.next hv, ?_, fun hd => (hold hd).1, hrom, ?_, hpat, hop,
    hwrite, ?_, hreset, ?_, ?_⟩
  · intro k i
    have hbyte := hbytes k i k.isLt
    cases hd : s.frameDest <;> simpa only [State.file, hd] using hbyte
  · rw [hwire, List.take_of_length_le hb.le, List.append_assoc]
  · rw [hans, hr]
    exact List.drop_left' (by simp [hb])
  · intro hlt
    simp [hend, hlt.ne, hupc, hbusy, hdone, BitVec.add_assoc]
  · intro heq
    simp [hend, heq]

end Sys2Proof.Machine
end

section
/-! ### The frame of the bus command frames and the pseudo-instructions -/

namespace Sys2Proof.Machine

/-- The transport operation of a micro-operation; no other instruction has one. -/
def uopFlow (i : Instr) (s : State) : Flow :=
  match i with
  | .reset => uopReset s
  | .wbyte v => uopWbyte v s
  | .wbit b => uopWbit b s
  | .wbitp k j => uopWbitp k j s
  | .rbyte d k => uopRbyte d k s
  | .wait10 => uopWait10 s
  | _ => .ok s

/-- A micro-operation is its transport operation, ended by advancing or aborting (R120). -/
theorem IsUop.exec_eq {i : Instr} (hi : IsUop i) (s : State) : exec i s = .next (uopFlow i s).finish := by
  cases hi <;> rfl

/-- A micro-operation has a UOP word, its encoding (R93). -/
theorem IsUop.word {i : Instr} (hi : IsUop i) : ∃ w, decodeUop w = .ok i := by
  obtain ⟨w, hw⟩ : ∃ w, encode i = .uop w := by cases hi <;> exact ⟨_, rfl⟩
  have h := everyInstructionRoundTrips i
  rw [hw] at h
  exact ⟨w, h⟩

/-- The micro-operations of a bus command frame or a pseudo-instruction (R101 to R103, R191, R200); `d` is the file a
bare OW_READ_ROM fills (log 8). -/
def frameUops (d : Dest) (i : Instr) : List Instr :=
  match i with
  | .owReadRom => .wbyte 0x33 :: indices.map (.rbyte d)
  | .owWriteEnable => [.wbyte 0xD1, .wbit false, .wait10]
  | .owWriteDisable => [.wbyte 0xD1, .wbit true, .wait10]
  | .owWriteData => .wbyte 0xD5 :: patternOrder.flatMap fun p => [.wbitp p.1 p.2, .wait10]
  | .romread e => .reset :: .wbyte 0x33 :: indices.map (.rbyte e)
  | .codec k => indices.flatMap fun j => [.wbitp k j, .wait10]
  | _ => []

/-- The bus command frames (layer W) and the two pseudo-instructions (R90, R112). -/
inductive IsFrame : Instr → Prop
  | owReadRom : IsFrame .owReadRom
  | owWriteEnable : IsFrame .owWriteEnable
  | owWriteDisable : IsFrame .owWriteDisable
  | owWriteData : IsFrame .owWriteData
  | romread (d : Dest) : IsFrame (.romread d)
  | codec (k : Fin 8) : IsFrame (.codec k)

/-- A frame or a pseudo-instruction runs its micro-operations (log 8). -/
theorem IsFrame.exec_eq {i : Instr} (hi : IsFrame i) (s : State) :
    exec i s = .next (runSeq ((frameUops s.frameDest i).map uopFlow) s) := by
  cases hi with
  | owWriteData =>
    change Host.Outcome.next (runSeq writeDataSeq s) = _
    rw [writeDataSeq_eq]
    rfl
  | _ => rfl

theorem isUop_of_mem_frameUops {d : Dest} {i j : Instr} (hj : j ∈ frameUops d i) : IsUop j := by
  cases i with
  | owReadRom | romread =>
    simp only [frameUops, List.mem_cons, List.mem_map] at hj
    grind [IsUop]
  | owWriteEnable | owWriteDisable =>
    simp only [frameUops, List.mem_cons, List.not_mem_nil, or_false] at hj
    obtain rfl | rfl | rfl := hj <;> constructor
  | owWriteData | codec =>
    simp only [frameUops, List.mem_cons, List.mem_flatMap, List.not_mem_nil, or_false] at hj
    grind [IsUop]
  | _ => simp [frameUops] at hj

/-- What micro-operations of the list `is` leave alone between `s` and `t`. -/
structure State.RunFrame (is : List Instr) (s t : State) : Prop where
  fixed : t.pat = s.pat ∧ t.op = s.op ∧ t.pins = s.pins ∧ t.slot = s.slot
  romcode : (∀ k, .rbyte .romcode k ∉ is) → t.romcode = s.romcode
  oldcode : (∀ k, .rbyte .oldcode k ∉ is) → t.oldcode = s.oldcode ∧ t.oldvalid = s.oldvalid
  reset : .reset ∉ is → t.pres = s.pres ∧ t.ansReset = s.ansReset
  read : (∀ d k, .rbyte d k ∉ is) → t.sr = s.sr ∧ t.ansRead = s.ansRead
  line : (t.tcnt = s.tcnt ∧ t.oe = s.oe) ∨ (t.tcnt = 0 ∧ t.oe = false)
  histories : s.trace <+: t.trace ∧ s.wire <+: t.wire
  running : t.busy = true → s.busy = true ∧ t.done = s.done ∧ t.valid = s.valid ∧ t.matched = s.matched ∧
    t.err = s.err ∧ t.fstep = s.fstep

theorem State.RunFrame.refl (is : List Instr) (s : State) : s.RunFrame is s := by
  constructor <;> simp

theorem State.RunFrame.trans {is : List Instr} {s u t : State} (h : s.RunFrame is u) (h' : u.RunFrame is t) :
    s.RunFrame is t := by
  obtain ⟨hfixed, hrom, hold, hreset, hread, hline, hhist, hrun⟩ := h
  obtain ⟨hfixed', hrom', hold', hreset', hread', hline', hhist', hrun'⟩ := h'
  constructor
  case histories => exact ⟨hhist.1.trans hhist'.1, hhist.2.trans hhist'.2⟩
  all_goals grind

/-- One micro-operation of the list (`microOperationFrame`). -/
theorem State.RunFrame.of_uop {is : List Instr} {i : Instr} (hmem : i ∈ is) (hi : IsUop i) {s t : State}
    (h : exec i s = .next t) : s.RunFrame is t := by
  obtain ⟨hfixed, hrom, hold, hvalid, hreset, hread, -, -, hline, hhist, hrun⟩ :=
    microOperationFrame i s t hi.word h
  have hne {j : Instr} (hj : j ∉ is) : i ≠ j := fun he => hj (he ▸ hmem)
  refine ⟨hfixed, fun hk => ?_, fun hk => ⟨?_, hvalid (hne (hk 7))⟩, fun hr => hreset (hne hr),
    fun hk => hread fun d k => hne (hk d k), hline, hhist, fun hb => ?_⟩
  · ext1 k hk8
    exact hrom ⟨k, hk8⟩ (hne (hk _))
  · ext1 k hk8
    exact hold ⟨k, hk8⟩ (hne (hk _))
  · obtain ⟨hbusy, -, hflags⟩ := hrun hb
    exact ⟨hbusy, hflags⟩

/-- A run of micro-operations leaves alone what each of them does, as far as it comes (R120). -/
theorem runSeq_frame {is js : List Instr} (hjs : ∀ j ∈ js, j ∈ is ∧ IsUop j) (s : State) :
    s.RunFrame is (runSeq (js.map uopFlow) s) := by
  induction js generalizing s with
  | nil => exact .refl is s
  | cons j js ih =>
    obtain ⟨⟨hmem, hj⟩, hjs⟩ := List.forall_mem_cons.mp hjs
    have hfirst : s.RunFrame is (uopFlow j s).finish := .of_uop hmem hj (hj.exec_eq s)
    have hrest := ih hjs (uopFlow j s).finish
    rw [List.map_cons]
    cases h : uopFlow j s with
    | raised e t =>
      rw [h] at hfirst
      rwa [runSeq_raised h]
    | ok t =>
      rw [h] at hfirst hrest
      cases he : t.atEnd with
      | true => rwa [runSeq_end h he]
      | false =>
        rw [runSeq_ok h he]
        exact hfirst.trans hrest

theorem mem_indices (k : Fin 8) : k ∈ indices := by
  revert k
  decide

/-- Which files a frame reads into (R101, R200; log 8). -/
theorem rbyte_mem_frameUops {d e : Dest} {k : Fin 8} {i : Instr} :
    .rbyte e k ∈ frameUops d i ↔ i = .romread e ∨ (i = .owReadRom ∧ d = e) := by
  cases i <;> simp [frameUops, mem_indices, eq_comm]

/-- Only ROMREAD resets the bus (R200). -/
theorem reset_mem_frameUops {d : Dest} {i : Instr} : .reset ∈ frameUops d i ↔ ∃ e, i = .romread e := by
  cases i <;> simp [frameUops]

/-- Settles O33: a frame or a pseudo-instruction is a run of micro-operations, none of which is a read into another
file (`rbyte_mem_frameUops`) or, but for ROMREAD, a reset. -/
theorem frameAndPseudoFrame : Obligations.FrameAndPseudoFrame := by
  intro i s t hi h
  have hframe : IsFrame i := by
    obtain hi | ⟨d, rfl⟩ | ⟨k, rfl⟩ := hi
    · simp only [List.mem_cons, List.not_mem_nil, or_false] at hi
      obtain rfl | rfl | rfl | rfl := hi <;> constructor
    · exact .romread d
    · exact .codec k
  cases (hframe.exec_eq s).symm.trans h
  obtain ⟨hfixed, hrom, hold, hreset, hread, hline, hhist, hrun⟩ :=
    runSeq_frame (fun j (hj : j ∈ frameUops s.frameDest i) => ⟨hj, isUop_of_mem_frameUops hj⟩) s
  simp only [rbyte_mem_frameUops, reset_mem_frameUops] at hrom hold hreset hread
  refine ⟨hfixed, fun hne hd => hrom ?_, fun hne hd => hold ?_, fun hne => hreset ?_, fun hne hne' => hread ?_, hline,
    hhist, hrun⟩
  all_goals grind

end Sys2Proof.Machine
end

section
/-! ### Runs of ticks -/

namespace Sys2Proof.Machine

/-- Ticks after ticks. -/
theorem runTicks_add {T : Timing} {xs : Nat → TickIn} {t0 m : Nat} {s u : State}
    (h : runTicks T xs t0 m s = .next u) (n : Nat) : runTicks T xs t0 (m + n) s = runTicks T xs (t0 + m) n u := by
  induction m generalizing t0 s with
  | zero =>
    cases h
    rw [Nat.zero_add]
    rfl
  | succ m ih =>
    rw [show m + 1 + n = (m + n) + 1 by omega, show t0 + (m + 1) = t0 + 1 + m by omega]
    simp only [runTicks] at h ⊢
    cases ht : tick T (xs t0) s <;> simp only [ht, reduceCtorEq] at h
    exact ih h

@[simp] theorem runTicks_one (T : Timing) (xs : Nat → TickIn) (t0 : Nat) (s : State) :
    runTicks T xs t0 1 s = tick T (xs t0) s := by
  simp only [runTicks]
  cases tick T (xs t0) s <;> rfl

end Sys2Proof.Machine
end

section
/-! ### The sample of a line operation, and the core between two of its ticks -/

namespace Sys2Proof.Machine

/-- The tick in which a line operation samples the line; for one that does not, any (R160, R168). -/
def LineOp.sampleTick (T : Timing) (o : LineOp) : Nat :=
  match o with
  | .reset => T.tH + T.tI
  | .read => T.tA + T.tE
  | _ => 0

/-- What the sample `b` of a line operation does: presence to `PRES`, data to `SR` (R160, R168). -/
def State.takeSample (s : State) (o : LineOp) (b : Bool) : State :=
  match o with
  | .reset => { s with pres := !b }
  | .read => s.shiftIn b
  | _ => s

/-- Only the sample tick takes a sample (R160, R168). -/
theorem sample_eq (s : State) (T : Timing) (o : LineOp) (n : Nat) (b : Bool) :
    s.sample T o n b = if n = o.sampleTick T then s.takeSample o b else s := by
  cases o
  case reset => rfl
  case read => rfl
  case write => exact (ite_self s).symm
  case wait => exact (ite_self s).symm

/-- The sample is taken before the operation is over (R160, R167). -/
theorem LineOp.sampleTick_lt_len {T : Timing} (hT : T.Wf) (o : LineOp) : o.sampleTick T < o.len T := by
  have hpos : 0 < o.len T := Nat.zero_lt_of_lt (o.low_lt_len hT)
  obtain ⟨-, ⟨-, -, -, -, -, hF, -, -, hJ⟩, -⟩ := hT
  cases o
  case reset => simp only [LineOp.len, LineOp.sampleTick]; omega
  case read => simp only [LineOp.len, LineOp.sampleTick]; omega
  case write => exact hpos
  case wait => exact hpos

/-- `s` in tick `n` of a line operation, with the level `e` of the tick before. -/
def State.atTick (s : State) (n : Nat) (e : Bool) : State := { s with tcnt := BitVec.ofNat 14 n, oe := e }

/-- `s`, its byte started, with the sample of the line operation taken if the first `n` ticks hold it. -/
def State.midLine (s : State) (T : Timing) (o : LineOp) (xs : Nat → TickIn) (t0 n : Nat) : State :=
  if o.sampleTick T < n then (s.startByte o).takeSample o (xs (t0 + o.sampleTick T)).owIn else s.startByte o

/-- The start of a byte and a sample touch `SR` and `PRES` only (R160, R168, R170). -/
theorem midLine_frame (s : State) (T : Timing) (o : LineOp) (xs : Nat → TickIn) (t0 n : Nat) :
    ∃ x p, s.midLine T o xs t0 n = { s with sr := x, pres := p } := by
  obtain ⟨x, hx⟩ := startByte_frame s o
  unfold State.midLine
  rw [hx]
  split
  · cases o
    case reset => exact ⟨x, _, rfl⟩
    case read => exact ⟨_, s.pres, rfl⟩
    case write => exact ⟨x, s.pres, rfl⟩
    case wait => exact ⟨x, s.pres, rfl⟩
  · exact ⟨x, s.pres, rfl⟩

/-- Up to the drive check nothing has been sampled (R159, R160, R168). -/
theorem midLine_of_le_low {T : Timing} (hT : T.Wf) (s : State) {o : LineOp} (xs : Nat → TickIn) (t0 : Nat) {n : Nat}
    (hn : n ≤ o.low T) : s.midLine T o xs t0 n = s.startByte o := by
  obtain ⟨-, ⟨-, -, -, -, hE, -, -, hI, -⟩, -⟩ := hT
  unfold State.midLine
  cases o
  case reset => exact if_neg (by simp only [LineOp.low, LineOp.sampleTick] at *; omega)
  case read => exact if_neg (by simp only [LineOp.low, LineOp.sampleTick] at *; omega)
  case write => exact ite_self _
  case wait => exact ite_self _

/-- Tick `n` samples what the core then holds `n + 1` ticks into the operation (R295). -/
theorem midLine_sample (s : State) (T : Timing) (o : LineOp) (xs : Nat → TickIn) (t0 n : Nat) :
    (s.midLine T o xs t0 n).sample T o n (xs (t0 + n)).owIn = s.midLine T o xs t0 (n + 1) := by
  rw [sample_eq]
  unfold State.midLine
  split
  next h =>
    subst h
    simp
  next h => simp only [show o.sampleTick T < n + 1 ↔ o.sampleTick T < n by omega]

theorem atTick_zero {s : State} (ht : s.tcnt = 0) {e : Bool} (he : s.oe = e) : s.atTick 0 e = s := by
  subst he
  change { s with tcnt := 0 } = s
  rw [← ht]

/-- A sample reads and writes neither `TCNT` nor `OE`. -/
theorem sample_atTick (s : State) (T : Timing) (o : LineOp) (m n : Nat) (b e : Bool) :
    (s.atTick m e).sample T o n b = (s.sample T o n b).atTick m e := by
  simp only [sample_eq]
  split
  · cases o <;> rfl
  · rfl

/-- An abort forgets `TCNT` and `OE` (R280; log 9). -/
theorem lineAbort_atTick (s : State) (i : Instr) (n : Nat) (e : Bool) : (s.atTick n e).lineAbort i = s.lineAbort i := by
  cases i <;> rfl

/-- A tick later in a slot does not start its byte again (R170). -/
theorem startByte_atTick_succ (s : State) (o : LineOp) {n : Nat} (hn : n + 1 < 2 ^ 14) (e : Bool) :
    (s.atTick (n + 1) e).startByte o = s.atTick (n + 1) e := by
  refine if_neg fun hc => ?_
  have hzero : BitVec.ofNat 14 (n + 1) = 0 := hc.2.1
  bv_omega

end Sys2Proof.Machine
end

section
/-! ### A line operation from its first tick to its last (R153 to R172) -/

namespace Sys2Proof.Machine

/-- A running core performs the line operation `o` of the micro-operation `i` (R153, R170). -/
structure State.Performs (s : State) (i : Instr) (o : LineOp) : Prop where
  busy : s.busy = true
  instr : s.programInstr = some i
  lineOp : lineOp i s = some o

/-- A running core before the first tick of a reset, a slot or a wait of the micro-operation `i`. -/
structure State.AtSlot (s : State) (i : Instr) : Prop where
  busy : s.busy = true
  instr : s.programInstr = some i
  tcnt : s.tcnt = 0
  oe : s.oe = false

/-- The state after the tick that follows `n` ticks of a line operation, `m` being the core once its byte has started
(R295). -/
def State.afterTick (m : State) (T : Timing) (i : Instr) (o : LineOp) (n : Nat) (inp : Bool) : State :=
  if lineFault T o n inp then m.lineAbort i
  else if n + 1 = o.len T then endLineOp i ((m.sample T o n inp).atTick 0 (driveLow T o n inp))
  else (m.sample T o n inp).atTick (n + 1) (driveLow T o n inp)

/-- The checks of a checked line operation (R158, R159). -/
theorem lineFault_eq {T : Timing} {o : LineOp} (ho : o ≠ .wait) (n : Nat) (b : Bool) :
    lineFault T o n b = ((n == 0 && !b) || (n == o.low T && b)) := by
  cases o with
  | wait => exact absurd rfl ho
  | _ => rfl

/-- A checked line operation pulls the line low in its first tick (R11, R158). -/
theorem LineOp.low_pos {T : Timing} (hT : T.Wf) {o : LineOp} (ho : o ≠ .wait) : 0 < o.low T := by
  obtain ⟨-, ⟨hA, -, hAC, -, -, -, hH, -, -⟩, -⟩ := hT
  cases o with
  | reset => exact hH
  | write b => cases b <;> simp only [LineOp.low] <;> grind
  | read => exact hA
  | wait => exact absurd rfl ho

/-- The samples of the line. -/
abbrev lineOf (xs : Nat → TickIn) : Nat → Bool := fun n => (xs n).owIn

/-- A check of a line operation that starts at `t0` fails (R158, R159). -/
def checkFails (T : Timing) (line : Nat → Bool) (t0 : Nat) (o : LineOp) : Bool := !line t0 || line (t0 + o.low T)

section
variable {T : Timing} {xs : Nat → TickIn} {t0 : Nat} {s : State} {i : Instr} {o : LineOp}

theorem State.AtSlot.performs (h : s.AtSlot i) (ho : lineOp i s = some o) : s.Performs i o := ⟨h.busy, h.instr, ho⟩

/-- A sample leaves the line operation as it is. -/
theorem State.Performs.midLine (h : s.Performs i o) (m n : Nat) (e : Bool) :
    ((s.midLine T o xs t0 m).atTick n e).Performs i o := by
  obtain ⟨hb, hi, ho⟩ := h
  obtain ⟨x, p, hx⟩ := midLine_frame s T o xs t0 m
  rw [hx]
  exact ⟨hb, hi, (lineOp_congr rfl rfl i).trans ho⟩

/-- A tick sees the core as it is once its byte has started (R170, R295). -/
theorem State.Performs.tick {u m : State} {x : TickIn} {n : Nat} {e : Bool} (h : u.Performs i o)
    (hrst : x.pins.rst = false) (hn : n < 2 ^ 14) (hu : u.startByte o = m.atTick n e) :
    tick T x u = .next (m.afterTick T i o n x.owIn) := by
  obtain ⟨y, hy⟩ := startByte_frame u o
  have htick : u.tcnt.toNat = n := by
    have ht : u.tcnt = BitVec.ofNat 14 n := congrArg State.tcnt (hy.symm.trans hu)
    simpa [ht] using hn
  have hoe (d : Bool) : { m.atTick n e with oe := d } = m.atTick n d := rfl
  rw [tick_of_busy T hrst h.busy h.instr h.lineOp, tickLine, hu, htick]
  simp only [hoe, lineAbort_atTick, sample_atTick, State.afterTick]
  simp only [State.atTick, BitVec.ofNat_add]
  rfl

variable (hT : T.Wf) (hrst : ∀ n, (xs n).pins.rst = false)
include hT hrst

/-- `n` ticks into a line operation whose checks have passed so far (R153). -/
theorem State.AtSlot.runTicks_midLine (h : s.AtSlot i) (ho : lineOp i s = some o) {n : Nat} (hn : n < o.len T)
    (hpass : ∀ k < n, lineFault T o k (xs (t0 + k)).owIn = false) :
    ∃ u e, runTicks T xs t0 n s = .next u ∧ u.Performs i o ∧ u.startByte o = (s.midLine T o xs t0 n).atTick n e := by
  have hlen := o.len_le hT
  induction n with
  | zero =>
    refine ⟨s, s.oe, rfl, h.performs ho, ?_⟩
    obtain ⟨x, hx⟩ := startByte_frame s o
    rw [State.midLine, if_neg (Nat.not_lt_zero _), hx]
    exact (atTick_zero (s := { s with sr := x }) h.tcnt rfl).symm
  | succ n ih =>
    obtain ⟨u, e, hrun, hu, hstart⟩ := ih (by omega) fun k hk => hpass k (by omega)
    refine ⟨_, driveLow T o n (xs (t0 + n)).owIn, ?_, (h.performs ho).midLine (n + 1) (n + 1) _,
      startByte_atTick_succ _ _ (by omega) _⟩
    rw [runTicks_add hrun, runTicks_one, hu.tick (hrst _) (by omega) hstart, State.afterTick,
      if_neg (by simp [hpass]), if_neg (by omega), midLine_sample]

/-- The tick after `n` ticks whose checks have passed (R295). -/
theorem State.AtSlot.runTicks_succ (h : s.AtSlot i) (ho : lineOp i s = some o) {n : Nat} (hn : n < o.len T)
    (hpass : ∀ k < n, lineFault T o k (xs (t0 + k)).owIn = false) :
    runTicks T xs t0 (n + 1) s = .next ((s.midLine T o xs t0 n).afterTick T i o n (xs (t0 + n)).owIn) := by
  have hlen := o.len_le hT
  obtain ⟨u, e, hrun, hu, hstart⟩ := h.runTicks_midLine hT hrst ho hn hpass
  rw [runTicks_add hrun, runTicks_one, hu.tick (hrst _) (by omega) hstart]

/-- A line operation whose check fails in tick `n` (R158, R159). -/
theorem State.AtSlot.runTicks_fault (h : s.AtSlot i) (ho : lineOp i s = some o) {n : Nat} (hn : n ≤ o.low T)
    (hpass : ∀ k < n, lineFault T o k (xs (t0 + k)).owIn = false) (hfail : lineFault T o n (xs (t0 + n)).owIn = true) :
    runTicks T xs t0 (n + 1) s = .next ((s.startByte o).lineAbort i) := by
  have hlt := o.low_lt_len hT
  rw [h.runTicks_succ hT hrst ho (by omega) hpass, State.afterTick, if_pos hfail, midLine_of_le_low hT s xs t0 hn]

/-- A line operation whose checks all pass (R161, R165, R168, R172). -/
theorem State.AtSlot.runTicks_len (h : s.AtSlot i) (ho : lineOp i s = some o)
    (hpass : ∀ k < o.len T, lineFault T o k (xs (t0 + k)).owIn = false) :
    runTicks T xs t0 (o.len T) s =
      .next (endLineOp i ((s.startByte o).takeSample o (lineOf xs (t0 + o.sampleTick T)))) := by
  have hsample := o.sampleTick_lt_len hT
  obtain ⟨n, hn⟩ : ∃ n, o.len T = n + 1 := ⟨o.len T - 1, by omega⟩
  have hend : (s.midLine T o xs t0 (n + 1)).atTick 0 false = s.midLine T o xs t0 (n + 1) := by
    obtain ⟨x, p, hx⟩ := midLine_frame s T o xs t0 (n + 1)
    rw [hx]
    exact atTick_zero (s := { s with sr := x, pres := p }) h.tcnt h.oe
  rw [hn, h.runTicks_succ hT hrst ho (by omega) fun k hk => hpass k (by omega), State.afterTick,
    if_neg (by simp [hpass n (by omega)]), if_pos hn.symm, midLine_sample, driveLow_last_tick hT hn.symm, hend,
    State.midLine, if_pos (by omega)]

/-- A checked line operation with a failed check aborts in the ticks of R180 (R158, R159). -/
theorem State.AtSlot.runTicks_failed (h : s.AtSlot i) (ho : lineOp i s = some o) (hwait : o ≠ .wait)
    (hf : checkFails T (lineOf xs) t0 o = true) :
    runTicks T xs t0 (lineTicks T (lineOf xs) t0 o) s = .next ((s.startByte o).lineAbort i) := by
  have hcheck := lineFault_eq (T := T) hwait
  unfold lineTicks
  cases hidle : lineOf xs t0 with
  | false => exact h.runTicks_fault hT hrst ho (Nat.zero_le _) (by simp) (by simp [hcheck, hidle])
  | true =>
    have hdrive : lineOf xs (t0 + o.low T) = true := by simpa [checkFails, hidle] using hf
    rw [hdrive]
    refine h.runTicks_fault hT hrst ho (Nat.le_refl _) (fun k hk => ?_) (by simp [hcheck, hdrive])
    rw [hcheck]
    cases k with
    | zero => simp [hidle, hk.ne]
    | succ k => simp [hk.ne]

/-- A checked line operation without a failed check ends in the ticks of R180 (R161, R165, R168). -/
theorem State.AtSlot.runTicks_passed (h : s.AtSlot i) (ho : lineOp i s = some o) (hwait : o ≠ .wait)
    (hf : checkFails T (lineOf xs) t0 o = false) :
    runTicks T xs t0 (lineTicks T (lineOf xs) t0 o) s =
      .next (endLineOp i ((s.startByte o).takeSample o (lineOf xs (t0 + o.sampleTick T)))) := by
  have hlow := LineOp.low_pos hT hwait
  obtain ⟨hidle, hdrive⟩ : lineOf xs t0 = true ∧ lineOf xs (t0 + o.low T) = false := by simpa [checkFails] using hf
  have hticks : lineTicks T (lineOf xs) t0 o = o.len T := by simp [lineTicks, hidle, hdrive]
  rw [hticks]
  refine h.runTicks_len hT hrst ho fun k _ => ?_
  rw [lineFault_eq hwait]
  cases k with
  | zero => simp [hidle, hlow.ne]
  | succ k =>
    by_cases hk : k + 1 = o.low T
    · simp [hk, hdrive, hlow.ne']
    · simp [hk]
end

end Sys2Proof.Machine
end

section
/-! ### The answers a line projects to (R176), slot by slot -/

namespace Sys2Proof.Machine

/-- The oracle's answers, in terms of the checks (R176). -/
theorem envWriteOf_eq (T : Timing) (line : Nat → Bool) (t0 : Nat) (b : Bool) :
    envWriteOf T line t0 b = if checkFails T line t0 (.write b) then .fault else .ok := rfl

theorem envReadOf_eq (T : Timing) (line : Nat → Bool) (t0 : Nat) :
    envReadOf T line t0 =
      if checkFails T line t0 .read then .fault else .bit (line (t0 + LineOp.read.sampleTick T)) := by
  rw [LineOp.sampleTick, ← Nat.add_assoc]
  rfl

theorem envResetOf_eq (T : Timing) (line : Nat → Bool) (t0 : Nat) :
    envResetOf T line t0 = if checkFails T line t0 .reset then .fault
      else if !line (t0 + LineOp.reset.sampleTick T) then .presence else .noPresence := by
  rw [LineOp.sampleTick, ← Nat.add_assoc]
  rfl

/-- What a write slot projects to, and the slots after it. -/
theorem projectWrites_cons (T : Timing) (line : Nat → Bool) (t0 : Nat) (b : Bool) (rest : List Bool) :
    projectWrites T line t0 (b :: rest) =
      if checkFails T line t0 (.write b) then ⟨[], [.fault], [], lineTicks T line t0 (.write b)⟩
      else
        let p := projectWrites T line (t0 + lineTicks T line t0 (.write b)) rest
        ⟨[], .ok :: p.writes, [], lineTicks T line t0 (.write b) + p.ticks⟩ := by
  simp only [projectWrites, envWriteOf_eq]
  cases checkFails T line t0 (.write b) <;> rfl

/-- What a read slot projects to, and the slots after it. -/
theorem projectReads_succ (T : Timing) (line : Nat → Bool) (t0 n : Nat) :
    projectReads T line t0 (n + 1) =
      if checkFails T line t0 .read then ⟨[], [], [.fault], lineTicks T line t0 .read⟩
      else
        let p := projectReads T line (t0 + lineTicks T line t0 .read) n
        ⟨[], [], .bit (line (t0 + LineOp.read.sampleTick T)) :: p.reads, lineTicks T line t0 .read + p.ticks⟩ := by
  simp only [projectReads, envReadOf_eq]
  cases checkFails T line t0 .read <;> rfl

/-- The answers to write slots are answers to writes only. -/
theorem projectWrites_writes (T : Timing) (line : Nat → Bool) (t0 : Nat) (bits : List Bool) :
    (projectWrites T line t0 bits).resets = [] ∧ (projectWrites T line t0 bits).reads = [] := by
  cases bits with
  | nil => exact ⟨rfl, rfl⟩
  | cons b rest =>
    rw [projectWrites_cons]
    split <;> exact ⟨rfl, rfl⟩

/-- The answers to read slots are answers to reads only. -/
theorem projectReads_reads (T : Timing) (line : Nat → Bool) (t0 n : Nat) :
    (projectReads T line t0 n).resets = [] ∧ (projectReads T line t0 n).writes = [] := by
  cases n with
  | zero => exact ⟨rfl, rfl⟩
  | succ n =>
    rw [projectReads_succ]
    split <;> exact ⟨rfl, rfl⟩

/-- A write slot takes its Ok answer and leaves the others to the slots after it (R122). -/
theorem wslots_withAnswers_ok (b : Bool) (rest : List Bool) (s : State) {p : Answers} (n : Nat)
    (hp : p.resets = [] ∧ p.reads = []) :
    wslots (b :: rest) (s.withAnswers ⟨[], .ok :: p.writes, [], n⟩) =
      wslots rest ((s.logWire (.w b)).nextBit.withAnswers p) := by
  obtain ⟨_, _, _, _⟩ := p
  obtain ⟨rfl, rfl⟩ := hp
  rfl

/-- A read slot takes its answer and leaves the others to the slots after it (R124). -/
theorem rslots_withAnswers_bit (b : Bool) (m : Nat) (s : State) {p : Answers} (n : Nat)
    (hp : p.resets = [] ∧ p.writes = []) :
    rslots (m + 1) (s.withAnswers ⟨[], [], .bit b :: p.reads, n⟩) =
      rslots m (((s.logWire (.r b)).shiftIn b).nextBit.withAnswers p) := by
  obtain ⟨_, _, _, _⟩ := p
  obtain ⟨rfl, rfl⟩ := hp
  rfl

end Sys2Proof.Machine
end

section
/-! ### The ticks of a micro-operation (R176) -/

namespace Sys2Proof.Machine

/-- How a WBYTE ends once its slots have (R125, R126). -/
def endWbyte (v : Byte) (f : Flow) : Flow :=
  match f with
  | .ok t => .ok (t.logCall (.wbyte v none))
  | .raised e t => .raised e (t.logCall (.wbyte v (some t.biti)))

/-- A WBYTE is the write slots of its byte, and their end (R125, R126). -/
theorem uopWbyte_eq (v : Byte) {s : State} (hbiti : s.biti = 0) :
    uopWbyte v s = endWbyte v (wslots (byteBits v) s) := by
  have hs : { s with biti := 0 } = s := by rw [← hbiti]
  conv_rhs => rw [← hs]
  rfl

/-- How an RBYTE ends once its slots have (R127). -/
def endRbyte (d : Dest) (k : Fin 8) (f : Flow) : Flow :=
  match f with
  | .ok t => .ok ((t.storeByte d k t.sr).logCall (.rbyte t.sr))
  | .raised e t => .raised e (t.logCall (.rbyteFault t.biti))

/-- An RBYTE is eight read slots on a started byte, and their end (R127, R170). -/
theorem uopRbyte_eq (d : Dest) (k : Fin 8) {s : State} (htcnt : s.tcnt = 0) (hbiti : s.biti = 0) :
    uopRbyte d k s = endRbyte d k (rslots 8 (s.startByte .read)) := by
  have hs : s.startByte .read = { s with biti := 0, sr := 0 } := by
    rw [← hbiti]
    exact if_pos ⟨rfl, htcnt, hbiti⟩
  rw [hs]
  rfl

/-- The coming answers do not matter to the start of a byte. -/
theorem startByte_withAnswers (s : State) (p : Answers) (o : LineOp) :
    (s.withAnswers p).startByte o = (s.startByte o).withAnswers p := by
  by_cases hc : o = .read ∧ s.tcnt = 0 ∧ s.biti = 0
  · rw [show s.startByte o = { s with sr := 0 } from if_pos hc]
    exact if_pos hc
  · rw [show s.startByte o = s from if_neg hc]
    exact if_neg hc

/-- The bits of a byte from the one `BITI` counts (R63, R170). -/
theorem byteBits_drop (v : Byte) (j : BitVec 3) :
    (byteBits v).drop j.toNat = v.getLsbD j.toNat :: (byteBits v).drop (j.toNat + 1) := by
  rw [List.drop_eq_getElem?_toList_append, byteBits_getElem? v ⟨j.toNat, j.isLt⟩]
  rfl

theorem toNat_add_one_of_ne_seven {j : BitVec 3} (h : j ≠ 7) : (j + 1).toNat = j.toNat + 1 := by
  bv_omega

/-- `SR[i]` is the bit just put there (R170). -/
theorem setBit_getLsbD (x : Byte) (i : BitVec 3) (b : Bool) : (setBit x i b).getLsbD i.toNat = b := by
  have hi : i.toNat < 8 := i.isLt
  cases b <;> simp [setBit, hi]

/-- The end of a read slot that sampled `b` (R168, R170). -/
theorem endLineOp_rbyte (d : Dest) (k : Fin 8) (s : State) (b : Bool) :
    endLineOp (.rbyte d k) (s.shiftIn b) =
      if s.biti = 7 then (endRbyte d k (.ok ((s.logWire (.r b)).shiftIn b).nextBit)).finish
      else ((s.logWire (.r b)).shiftIn b).nextBit := by
  have hbit : (s.shiftIn b).sr.getLsbD (s.shiftIn b).biti.toNat = b := setBit_getLsbD s.sr s.biti b
  simp only [endLineOp, hbit]
  rfl

/-- A later slot of a byte does not start it again (R170). -/
theorem startByte_of_biti {s : State} (h : s.biti ≠ 0) (o : LineOp) : s.startByte o = s :=
  if_neg fun hc => h hc.2.2

section
variable {T : Timing} {xs : Nat → TickIn} {t0 : Nat} {s : State} (hT : T.Wf) (hrst : ∀ n, (xs n).pins.rst = false)
include hT hrst

/-- The remaining slots of a WBYTE, from the one `BITI` counts (R125, R126, R170). -/
theorem State.AtSlot.runTicks_wslots {v : Byte} {bits : List Bool} (h : s.AtSlot (.wbyte v))
    (hbits : bits = (byteBits v).drop s.biti.toNat) :
    runTicks T xs t0 (projectWrites T (lineOf xs) t0 bits).ticks s = .next
      (endWbyte v (wslots bits (s.withAnswers (projectWrites T (lineOf xs) t0 bits)))).finish := by
  induction bits generalizing s t0 with
  | nil => simp [byteBits_drop] at hbits
  | cons b rest ih =>
    rw [byteBits_drop, List.cons.injEq] at hbits
    obtain ⟨rfl, hrest⟩ := hbits
    rw [projectWrites_cons]
    cases hf : checkFails T (lineOf xs) t0 (.write (v.getLsbD s.biti.toNat)) with
    | true => exact h.runTicks_failed hT hrst rfl (by simp) hf
    | false =>
      simp only [Bool.false_eq_true, if_false]
      rw [runTicks_add (h.runTicks_passed hT hrst rfl (by simp) hf),
        wslots_withAnswers_ok _ _ _ _ (projectWrites_writes _ _ _ _)]
      by_cases h7 : s.biti = 7
      · obtain rfl : rest = [] := by simp [hrest, h7]
        exact congrArg Host.Outcome.next (if_pos h7)
      · have hend : endLineOp (.wbyte v) s = (s.logWire (.w (v.getLsbD s.biti.toNat))).nextBit := if_neg h7
        refine (congrArg _ hend).trans (ih ⟨h.busy, h.instr, h.tcnt, h.oe⟩ ?_)
        rw [hrest, State.nextBit_biti, State.logWire_biti, toNat_add_one_of_ne_seven h7]

/-- The remaining slots of an RBYTE, from the one `BITI` counts (R127, R170). -/
theorem State.AtSlot.runTicks_rslots {d : Dest} {k : Fin 8} {n : Nat} (h : s.AtSlot (.rbyte d k))
    (hn : s.biti.toNat + n = 8) :
    runTicks T xs t0 (projectReads T (lineOf xs) t0 n).ticks s = .next (endRbyte d k
      (rslots n ((s.startByte .read).withAnswers (projectReads T (lineOf xs) t0 n)))).finish := by
  induction n generalizing s t0 with
  | zero =>
    have : s.biti.toNat < 8 := s.biti.isLt
    omega
  | succ n ih =>
    obtain ⟨x, hx⟩ := startByte_frame s .read
    have hbiti : (s.startByte .read).biti = s.biti := by rw [hx]
    rw [projectReads_succ]
    cases hf : checkFails T (lineOf xs) t0 .read with
    | true => exact h.runTicks_failed hT hrst rfl (by simp) hf
    | false =>
      simp only [Bool.false_eq_true, if_false]
      rw [runTicks_add (h.runTicks_passed hT hrst rfl (by simp) hf),
        rslots_withAnswers_bit _ _ _ _ (projectReads_reads _ _ _ _), State.takeSample, endLineOp_rbyte, hbiti]
      by_cases h7 : s.biti = 7
      · obtain rfl : n = 0 := by
          have : s.biti.toNat = 7 := by rw [h7]; rfl
          omega
        rw [if_pos h7]
        generalize s.startByte .read = r
        rfl
      · have hnext := toNat_add_one_of_ne_seven h7
        rw [if_neg h7, ih]
        · rw [startByte_of_biti]
          simp [hbiti]
          bv_omega
        · rw [hx]
          exact ⟨h.busy, h.instr, h.tcnt, h.oe⟩
        · rw [hx]
          change (s.biti + 1).toNat + n = 8
          omega

/-- The ticks of a WBYTE (R125, R126, R176). -/
theorem State.AtSlot.runTicks_wbyte {v : Byte} (h : s.AtSlot (.wbyte v)) (hbiti : s.biti = 0) :
    runTicks T xs t0 (projectWrites T (lineOf xs) t0 (byteBits v)).ticks s =
      .next (uopWbyte v (s.withAnswers (projectWrites T (lineOf xs) t0 (byteBits v)))).finish := by
  rw [uopWbyte_eq v (s := s.withAnswers _) hbiti]
  exact h.runTicks_wslots hT hrst (by simp [hbiti])

/-- The ticks of an RBYTE (R127, R176). -/
theorem State.AtSlot.runTicks_rbyte {d : Dest} {k : Fin 8} (h : s.AtSlot (.rbyte d k)) (hbiti : s.biti = 0) :
    runTicks T xs t0 (projectReads T (lineOf xs) t0 8).ticks s =
      .next (uopRbyte d k (s.withAnswers (projectReads T (lineOf xs) t0 8))).finish := by
  rw [uopRbyte_eq d k (s := s.withAnswers _) h.tcnt hbiti, startByte_withAnswers]
  exact h.runTicks_rslots hT hrst (by simp [hbiti])

/-- The ticks of a RESET (R160, R161, R176). -/
theorem State.AtSlot.runTicks_reset (h : s.AtSlot .reset) :
    runTicks T xs t0 (project T (lineOf xs) t0 s.pat .reset).ticks s =
      .next (uopReset (s.withAnswers (project T (lineOf xs) t0 s.pat .reset))).finish := by
  simp only [project, envResetOf_eq]
  cases hf : checkFails T (lineOf xs) t0 .reset with
  | true => exact h.runTicks_failed hT hrst rfl (by simp) hf
  | false =>
    rw [h.runTicks_passed hT hrst rfl (by simp) hf]
    cases lineOf xs (t0 + LineOp.reset.sampleTick T) <;> rfl

/-- The ticks of a single-bit write, common to WBIT and WBITP (R123, R129, R176). -/
theorem State.AtSlot.runTicks_wbit {b : Bool} {i : Instr}
    (hi : i = .wbit b ∨ ∃ k j, i = .wbitp k j ∧ b = patBit s.pat k j) (h : s.AtSlot i) :
    runTicks T xs t0 (projectWrites T (lineOf xs) t0 [b]).ticks s =
      .next (uopWbit b (s.withAnswers (projectWrites T (lineOf xs) t0 [b]))).finish := by
  have ho : lineOp i s = some (.write b) := by obtain rfl | ⟨k, j, rfl, rfl⟩ := hi <;> rfl
  rw [projectWrites_cons]
  cases hf : checkFails T (lineOf xs) t0 (.write b) with
  | true =>
    refine (h.runTicks_failed hT hrst ho (by simp) hf).trans ?_
    obtain rfl | ⟨k, j, rfl, rfl⟩ := hi <;> rfl
  | false =>
    refine (h.runTicks_passed hT hrst ho (by simp) hf).trans ?_
    obtain rfl | ⟨k, j, rfl, rfl⟩ := hi <;> rfl

/-- The ticks of a WAIT10, whatever the line does (R172). -/
theorem State.AtSlot.runTicks_wait (h : s.AtSlot .wait10) :
    runTicks T xs t0 T.tSettle s = .next (uopWait10 s).finish :=
  h.runTicks_len hT hrst (o := .wait) rfl fun _ _ => rfl
end

/-- Settles O50: a line operation either ends with its sample or aborts at its first failed check, in the ticks of R180,
as its answer of R176 says (`State.AtSlot.runTicks_passed`, `State.AtSlot.runTicks_failed`); a byte is eight of them. -/
theorem levelLRefinesLevelT : Obligations.LevelLRefinesLevelT := by
  rintro T xs t0 s i hT hrst ⟨htcnt, hbiti, hoe⟩ hb hi
  have h : s.AtSlot i := ⟨hb, hi, htcnt, hoe⟩
  have hu := isUop_of_programInstr hi
  refine ⟨_, ?_, hu.exec_eq _⟩
  cases hu with
  | reset => exact h.runTicks_reset hT hrst
  | wbyte v => exact h.runTicks_wbyte hT hrst hbiti
  | wbit b => exact h.runTicks_wbit hT hrst (.inl rfl)
  | wbitp k j => exact h.runTicks_wbit hT hrst (.inr ⟨k, j, rfl, rfl⟩)
  | rbyte d k => exact h.runTicks_rbyte hT hrst hbiti
  | wait10 => exact h.runTicks_wait hT hrst

end Sys2Proof.Machine
end

section
/-! ### How the micro-operations end on each answer -/

namespace Sys2Proof.Machine

/-- Settles O17: RESET follows its answer (`uopReset`), and ends by advancing or aborting. -/
theorem resetFollowsItsAnswer : Obligations.ResetFollowsItsAnswer := by
  refine ⟨fun s h => ?_, fun s h => ?_, fun s h => ?_⟩
  · simp only [exec, execReset, uopReset, h, Flow.finish_ok]
    rfl
  · simp only [exec, execReset, uopReset, h, Flow.finish_raised]
    rfl
  · simp only [exec, execReset, uopReset, h, Flow.finish_raised]
    rfl

/-- Settles O18: WBIT is the single-bit write, on each of its two answers. -/
theorem wbitSendsOneSlot : Obligations.WbitSendsOneSlot := by
  refine ⟨fun s b h => ?_, fun s b h => ?_⟩
  · simp only [exec, execWbit, uopWbit_ok h, Flow.finish_ok]
    rfl
  · simp only [exec, execWbit, uopWbit_fault h, Flow.finish_raised]
    rfl

/-- Settles O24: WAIT10 asks the environment nothing. -/
theorem wait10OnlyMovesOn : Obligations.Wait10OnlyMovesOn := fun _ => rfl

/-- The bits of a byte before slot `n`, slot `n`, and the rest (R63). -/
theorem byteBits_split (v : Byte) (n : Fin 8) : byteBits v =
    (List.range n.val).map (fun i => v.getLsbD i) ++ v.getLsbD n.val :: (byteBits v).drop (n.val + 1) := by
  fin_cases n <;> rfl

/-- WBYTE with its first fault in slot `n` (R126). -/
theorem uopWbyte_fault (v : Byte) (n : Fin 8) {s : State} {l : List WriteAnswer}
    (h : s.ansWrite = List.replicate n.val .ok ++ .fault :: l) :
    uopWbyte v s = .raised .transportTimingFault ({ s with
      ansWrite := l, wire := s.wire ++ (List.range n.val).map (fun i => WireEvent.w (v.getLsbD i)),
      biti := BitVec.ofNat 3 n.val }.logCall (.wbyte v (some (BitVec.ofNat 3 n.val)))) := by
  have hslots := wslots_fault ((List.range n.val).map fun i => v.getLsbD i) (v.getLsbD n.val)
    ((byteBits v).drop (n.val + 1)) { s with biti := 0 } l (by simpa using h)
  rw [← byteBits_split] at hslots
  simp only [uopWbyte, writeByte, hslots]
  simp [Function.comp_def]

/-- Settles O21: the abort after `uopWbyte_fault`. -/
theorem wbyteFaultStopsTheByte : Obligations.WbyteFaultStopsTheByte := by
  intro s v n l h
  refine ⟨_, rfl, ?_⟩
  rw [uopWbyte_fault v n h]
  exact ⟨rfl, rfl, rfl, rfl, rfl, rfl, rfl, rfl, rfl⟩

/-- RBYTE with its first fault after the bits `bits` (R127). -/
theorem uopRbyte_fault (d : Dest) (k : Fin 8) {bits : List Bool} (hbits : bits.length < 8) {s : State}
    {l : List ReadAnswer} (h : s.ansRead = bits.map .bit ++ .fault :: l) :
    uopRbyte d k s = .raised .transportTimingFault ({ s with
      ansRead := l, wire := s.wire ++ bits.map WireEvent.r, biti := BitVec.ofNat 3 bits.length,
      sr := shiftBits 0 0 bits }.logCall (.rbyteFault (BitVec.ofNat 3 bits.length))) := by
  obtain ⟨m, hm⟩ : ∃ m, 8 = bits.length + (m + 1) := ⟨7 - bits.length, by omega⟩
  have hslots := rslots_fault bits m { s with biti := 0, sr := 0 } l h
  rw [← hm] at hslots
  simp only [uopRbyte, readByte, hslots]
  simp

/-- Settles O23: the abort after `uopRbyte_fault`, which has stored nothing. -/
theorem rbyteFaultDropsThePartialByte : Obligations.RbyteFaultDropsThePartialByte := by
  intro s d k bits l hbits h
  refine ⟨_, rfl, ?_⟩
  rw [uopRbyte_fault d k hbits h]
  exact ⟨rfl, rfl, rfl, rfl, rfl, rfl, rfl, rfl, rfl, rfl, rfl, rfl⟩

end Sys2Proof.Machine
end

section
/-! ### A legal machine goes on, and every command ends -/

namespace Sys2Proof.Machine

/-- A host command always has a next state (R108, R252). -/
theorem exec_host_next (w : BitVec 66) (s : State) : ∃ t, exec (decodeHost w) s = .next t := by
  simp only [decodeHost]
  split_ifs <;> exact ⟨_, rfl⟩

/-- Settles O42: the word of a legal core is a host command or a micro-operation, which always have a next state. -/
theorem legalStepNeverStops : Obligations.LegalStepNeverStops := by
  rintro s ⟨hlegal, -, hslot⟩
  cases hrst : s.pinsNow.rst with
  | true => exact ⟨_, if_pos hrst⟩
  | false =>
    cases hb : s.busy with
    | false =>
      rw [step_of_idle hrst hslot hb]
      exact exec_host_next _ _
    | true =>
      obtain ⟨i, hi⟩ := programInstr_legal (hlegal.running hb).upc_lt
      rw [step_of_busy hrst hslot hb hi]
      exact (isUop_of_programInstr hi).exec_next _

/-- Settles O53: a tick of a legal core samples a command, or performs the line operation of its micro-operation. -/
theorem legalTickNeverStops : Obligations.LegalTickNeverStops := by
  rintro T x s ⟨hlegal, -, -⟩
  cases hrst : x.pins.rst with
  | true => exact ⟨_, if_pos hrst⟩
  | false =>
    cases hb : s.busy with
    | false =>
      rw [tick_of_idle T hrst hb]
      exact exec_host_next _ _
    | true =>
      obtain ⟨i, hi⟩ := programInstr_legal (hlegal.running hb).upc_lt
      obtain ⟨o, ho⟩ := (isUop_of_programInstr hi).lineOp_isSome s
      exact ⟨_, tick_of_busy T hrst hb hi ho⟩

/-- A step after which the command still runs has taken it one micro-operation further (R32). -/
theorem step_still_busy {s t : State} (hs : s.Inv) (hb : s.busy = true) (h : step s = .next t) (ht : t.busy = true) :
    t.op = s.op ∧ t.upc.toNat = s.upc.toNat + 1 := by
  obtain ⟨hlegal, -, hslot⟩ := hs
  obtain rfl | ⟨hidle, -⟩ | ⟨-, i, hi, he⟩ := step_next_cases hslot h
  · cases ht
  · simp [hb] at hidle
  · obtain ⟨⟨-, hop, -⟩, -, -, -, -, -, -, -, -, -, hrun⟩ :=
      microOperationFrame i s.fetched t (isUop_of_programInstr hi).word he
    obtain ⟨-, hupc, -⟩ := hrun ht
    rw [hupc]
    exact ⟨hop, toNat_upc_add_one (hlegal.running hb).upc_lt⟩

/-- Settles O43, by induction on the micro-operations the command has left: a step ends the command, or takes it one
micro-operation further (`step_still_busy`) and keeps the invariant. -/
theorem everyCommandEnds : Obligations.EveryCommandEnds := by
  intro s hs hb
  induction hleft : progLen s.op - s.upc.toNat generalizing s with
  | zero =>
    obtain ⟨hlegal, -⟩ := hs
    have := (hlegal.running hb).upc_lt
    omega
  | succ m ih =>
    obtain ⟨t, ht⟩ := legalStepNeverStops s hs
    cases htb : t.busy with
    | false => exact ⟨1, by omega, t, by simp only [runSteps, ht], htb⟩
    | true =>
      obtain ⟨hop, hupc⟩ := step_still_busy hs hb ht htb
      obtain ⟨n, hn, u, hu, hub⟩ := ih t (stepKeepsTheInvariant s t hs ht) htb (by rw [hop]; omega)
      rw [hop] at hn
      exact ⟨n + 1, by omega, u, by simp only [runSteps, ht, hu], hub⟩

end Sys2Proof.Machine
end

section
/-! ### A tick of a line operation, by its checks and its place in the operation -/

namespace Sys2Proof.Machine

/-- One tick of a line operation as a whole state: an abort, the end of the operation, or its next tick; the byte's
start and the sample show in `SR` and `PRES` only (R295). -/
theorem tickLine_cases (T : Timing) (inp : Bool) (i : Instr) (o : LineOp) (s : State) : ∃ x p,
    (lineFault T o s.tcnt.toNat inp = true ∧ tickLine T inp i o s = { s with sr := x }.lineAbort i) ∨
    (lineFault T o s.tcnt.toNat inp = false ∧ s.tcnt.toNat + 1 = o.len T ∧ tickLine T inp i o s =
      endLineOp i { s with sr := x, pres := p, tcnt := 0, oe := driveLow T o s.tcnt.toNat inp }) ∨
    (lineFault T o s.tcnt.toNat inp = false ∧ s.tcnt.toNat + 1 ≠ o.len T ∧ tickLine T inp i o s =
      { s with sr := x, pres := p, tcnt := s.tcnt + 1, oe := driveLow T o s.tcnt.toNat inp }) := by
  obtain ⟨x, hx⟩ := startByte_frame s o
  obtain ⟨y, p, hy⟩ := sample_frame { s with sr := x, oe := driveLow T o s.tcnt.toNat inp } T o s.tcnt.toNat inp
  simp only [tickLine, hx]
  cases hf : lineFault T o s.tcnt.toNat inp with
  | true =>
    refine ⟨x, p, .inl ⟨rfl, ?_⟩⟩
    cases i <;> rfl
  | false =>
    refine ⟨y, p, .inr ?_⟩
    rw [hy]
    by_cases hend : s.tcnt.toNat + 1 = o.len T
    · exact .inl ⟨rfl, hend, by simp [hend]⟩
    · exact .inr ⟨rfl, hend, by simp [hend]⟩

/-- A tick of a WAIT10, in which the line has no part (R172). -/
theorem tickLine_wait (T : Timing) (inp : Bool) (i : Instr) (s : State) : tickLine T inp i .wait s =
    if s.tcnt.toNat + 1 = T.tSettle then endLineOp i { s with oe := false, tcnt := 0 }
    else { s with oe := false, tcnt := s.tcnt + 1 } := by
  have hstart : s.startByte .wait = s := if_neg (by simp)
  simp [tickLine, hstart, driveLow, lineFault, State.sample, LineOp.low, LineOp.len]

/-- How a line operation whose last tick has passed leaves `u` (R153, R161, R165, R168, R172): at the next slot of a
byte, with its micro-operation completed, or, a RESET only, with NoDevicePresent raised. -/
inductive State.LineOpEnd (i : Instr) (u : State) : State → Prop
  | nextSlot (t : State) (control : u.SameControl t) (byte : isByteOp i = true) (more : u.biti ≠ 7)
      (biti : t.biti = u.biti + 1) (tcnt : t.tcnt = u.tcnt) (oe : t.oe = u.oe) : u.LineOpEnd i t
  | completed (t : State) (control : u.SameControl t) (last : isByteOp i = true → u.biti = 7)
      (biti : t.biti = if isByteOp i then 0 else u.biti) (tcnt : t.tcnt = u.tcnt) (oe : t.oe = u.oe) :
      u.LineOpEnd i t.advance
  | raised (t : State) (e : ErrCode) (reset : i = .reset) (he : e.Aborts) : u.LineOpEnd i (t.abort e)

/-- What the end of a line operation can do, said once. -/
theorem endLineOp_cases {i : Instr} (hi : IsUop i) (u : State) : u.LineOpEnd i (endLineOp i u) := by
  cases hi <;> simp only [endLineOp]
  case reset =>
    split
    · exact .completed _ (by simp) nofun rfl rfl rfl
    · exact .raised _ _ rfl (.inl rfl)
  case wbyte v =>
    split
    next h7 => exact .completed _ (by simp) (fun _ => h7) (by simp [isByteOp, h7]) rfl rfl
    next h7 => exact .nextSlot _ (by simp) rfl h7 rfl rfl rfl
  case wbit b => exact .completed _ (by simp) nofun rfl rfl rfl
  case wbitp k j => exact .completed _ (by simp) nofun rfl rfl rfl
  case rbyte d k =>
    split
    next h7 => exact .completed _ (by simp) (fun _ => h7) (by simp [isByteOp, h7]) (by simp) (by simp)
    next h7 => exact .nextSlot _ (by simp) rfl h7 rfl rfl rfl
  case wait10 => exact .completed _ (by simp) nofun rfl rfl rfl

/-- The end of a line operation does not drive the line (R151). -/
theorem State.LineOpEnd.oe_eq_false {i : Instr} {u t : State} (h : u.LineOpEnd i t) (hoe : u.oe = false) :
    t.oe = false := by
  cases h with
  | nextSlot _ _ _ _ _ _ he => exact he.trans hoe
  | completed t _ _ _ _ he => exact (State.advance_oe t).trans (he.trans hoe)
  | raised => rfl

/-- Short of the program's end a completed micro-operation moves `UPC` on (R32). -/
theorem State.advance_of_not_atEnd {s : State} (h : s.atEnd = false) : s.advance = { s with upc := s.upc + 1 } :=
  if_neg (ne_true_of_eq_false h)

/-- Both programs end with an RBYTE (R203, R217). -/
theorem programInstr_of_atEnd {s : State} (h : s.atEnd = true) : s.programInstr = some (.rbyte .romcode 7) := by
  have hlast (o : Op) : (progWords o)[progLen o - 1]?.bind (fun w => (decodeUop w).toOption) =
      some (.rbyte .romcode 7) := by cases o <;> decide +kernel
  have hend : s.upc.toNat + 1 = progLen s.op := by simpa [State.atEnd] using h
  have hupc : s.upc.toNat = progLen s.op - 1 := by omega
  rw [State.programInstr, State.programWord, hupc, hlast]

/-- A micro-operation other than an RBYTE does not end its program. -/
theorem atEnd_of_not_rbyte {s : State} {i : Instr} (hi : s.programInstr = some i) (h : ∀ d k, i ≠ .rbyte d k) :
    s.atEnd = false := by
  by_contra hend
  rw [Bool.not_eq_false] at hend
  exact h _ _ (Option.some.inj (hi.symm.trans (programInstr_of_atEnd hend)))

end Sys2Proof.Machine
end

section
/-! ### The level of `ow_oe` (R151, R154, R174) -/

namespace Sys2Proof.Machine

/-- A failed check finds the line released: the idle check by R158, the drive check after the low time (R159). -/
theorem driveLow_of_lineFault {T : Timing} {o : LineOp} {n : Nat} {inp : Bool} (h : lineFault T o n inp = true) :
    driveLow T o n inp = false := by
  have ho : o ≠ .wait := by
    rintro rfl
    cases h
  rw [lineFault_eq ho] at h
  simp only [driveLow, Bool.and_eq_false_iff, decide_eq_false_iff_not]
  grind

/-- After a tick of a line operation `OE` is the level of its timeline (R154). -/
theorem tickLine_oe {T : Timing} (hT : T.Wf) (inp : Bool) {i : Instr} (hi : IsUop i) (o : LineOp) (s : State) :
    (tickLine T inp i o s).oe = driveLow T o s.tcnt.toNat inp := by
  obtain ⟨x, p, ⟨hf, h⟩ | ⟨-, hend, h⟩ | ⟨-, -, h⟩⟩ := tickLine_cases T inp i o s <;> rw [h]
  · exact (driveLow_of_lineFault hf).symm
  · have hlow := driveLow_last_tick hT hend inp
    rw [hlow]
    exact (endLineOp_cases hi _).oe_eq_false rfl

/-- A tick of an idle core releases the line, whatever the host does (R151, R310). -/
theorem tick_of_idle_releases (T : Timing) (x : TickIn) {s : State} (hb : s.busy = false) :
    ∃ t, tick T x s = .next t ∧ t.oe = false := by
  cases hrst : x.pins.rst with
  | true => exact ⟨_, if_pos hrst, rfl⟩
  | false =>
    rw [tick_of_idle T hrst hb]
    obtain ⟨t, ht⟩ := exec_host_next x.pins.word { s with oe := false }
    obtain rfl | rfl | ⟨p, rfl⟩ := exec_host_cases (s := { s with oe := false }) hb ht <;> exact ⟨_, ht, rfl⟩

/-- Settles O56: the output by cases on the running operation (`owOe_busy`), the register by `tickLine_oe`. -/
theorem driveFollowsTheTimeline : Obligations.DriveFollowsTheTimeline := by
  refine ⟨fun T x s i o hb hi ho => ?_, fun T x s => owOe_idle T x s, fun T x s hT hs hrst => ?_,
    fun T x y s hrst => ⟨_, if_pos hrst, rfl, rfl⟩⟩
  · have hzero : s.tcnt = 0 ↔ s.tcnt.toNat = 0 := by bv_omega
    rw [owOe_busy T x s i o hb hi ho, hzero]
    simp only [driveLow, Bool.and_eq_true, decide_eq_true_iff]
    grind
  · cases hb : s.busy with
    | false =>
      rw [owOe_idle T x s hb]
      exact tick_of_idle_releases T x hb
    | true =>
      obtain ⟨hlegal, -, -⟩ := hs
      obtain ⟨i, hi⟩ := programInstr_legal (hlegal.running hb).upc_lt
      have hu := isUop_of_programInstr hi
      obtain ⟨o, ho⟩ := hu.lineOp_isSome s
      exact ⟨_, tick_of_busy T hrst hb hi ho, by rw [tickLine_oe hT x.owIn hu, owOe_busy T x s i o hb hi ho]⟩

/-- Settles O57: a legal idle core is between two line operations (`tickKeepsTheInvariant`). -/
theorem idleCoreReleasesTheLine : Obligations.IdleCoreReleasesTheLine := by
  refine ⟨fun T x s t hT hs h htb => ?_, fun T x s hb => tick_of_idle_releases T x hb⟩
  obtain ⟨-, -, hidle⟩ := tickKeepsTheInvariant T x s t hT hs h
  obtain ⟨-, -, hoe⟩ := hidle htb
  exact hoe

end Sys2Proof.Machine
end

section
/-! ### The two line checks (R158, R159) -/

namespace Sys2Proof.Machine

/-- A checked line operation is not over in its first tick. -/
theorem one_lt_len {T : Timing} (hT : T.Wf) {o : LineOp} (ho : o ≠ .wait) : 1 < o.len T := by
  have hlow := LineOp.low_pos hT ho
  have hlen := o.low_lt_len hT
  omega

/-- Only a write slot can be over in the tick of its drive check (R160, R163, R167). -/
theorem write_of_len_eq {T : Timing} (hT : T.Wf) {o : LineOp} (ho : o ≠ .wait) (h : o.low T + 1 = o.len T) :
    ∃ b, o = .write b := by
  obtain ⟨-, ⟨-, -, -, -, hE, hF, -, hI, hJ⟩, -⟩ := hT
  cases o with
  | write b => exact ⟨b, rfl⟩
  | wait => exact absurd rfl ho
  | reset => simp only [LineOp.low, LineOp.len] at h; omega
  | read => simp only [LineOp.low, LineOp.len] at h; omega

/-- The end of a write slot goes on with the command, since no program ends with a write (R163, R203, R217). -/
theorem State.LineOpEnd.of_write {u t : State} {i : Instr} {b : Bool} (h : u.LineOpEnd i t)
    (hi : u.programInstr = some i) (ho : lineOp i u = some (.write b)) :
    t.err = u.err ∧ t.fstep = u.fstep ∧ t.done = u.done ∧ t.busy = u.busy := by
  cases h with
  | nextSlot _ hc => exact ⟨hc.err, hc.fstep, hc.done, hc.busy⟩
  | completed t hc =>
    have hend : t.atEnd = false := by
      rw [State.atEnd_congr hc.op hc.upc]
      refine atEnd_of_not_rbyte hi ?_
      rintro d k rfl
      cases ho
    simp [hend, hc.err, hc.fstep, hc.done, hc.busy]
  | raised t e hreset =>
    subst hreset
    cases ho

/-- Settles O54: the first tick by `tickLine_cases`, where the drive check and the end are still to come; a WAIT10 by
`tickLine_wait`, which ends no program. -/
theorem idleCheckInTheFirstTick : Obligations.IdleCheckInTheFirstTick := by
  refine ⟨fun T x s i o hT hrst hb hi ho hwait htcnt => ?_, fun T p s hrst hb hi => ?_⟩
  · have hlow := LineOp.low_pos hT hwait
    have hlen := one_lt_len hT hwait
    have hn : s.tcnt.toNat = 0 := by simp [htcnt]
    have hcheck := lineFault_eq (T := T) hwait 0 x.owIn
    refine ⟨_, tick_of_busy T hrst hb hi ho, ?_⟩
    obtain ⟨y, p, ⟨hf, h⟩ | ⟨-, hend, -⟩ | ⟨hf, -, h⟩⟩ := tickLine_cases T x.owIn i o s
    · have hin : x.owIn = false := by simpa [hn, hcheck, hlow.ne] using hf
      rw [h]
      exact ⟨fun _ => ⟨rfl, rfl, rfl, rfl, rfl, rfl, rfl, rfl, rfl⟩, by simp [hin]⟩
    · omega
    · have hin : x.owIn = true := by simpa [hn, hcheck, hlow.ne] using hf
      rw [h]
      exact ⟨by simp [hin], fun _ => ⟨by simp [driveLow, hn, hin, hlow], rfl, hb, rfl, by simp [htcnt]⟩⟩
  · have hend : s.atEnd = false := atEnd_of_not_rbyte hi nofun
    refine ⟨_, tick_of_busy T hrst hb hi rfl, ?_⟩
    rw [tick_of_busy T hrst hb hi rfl, tickLine_wait, tickLine_wait]
    refine ⟨rfl, ?_⟩
    split
    · rw [endLineOp, State.advance_of_not_atEnd]
      · exact ⟨rfl, rfl⟩
      · exact hend
    · exact ⟨rfl, rfl⟩

/-- Settles O55: the tick of the drive check by `tickLine_cases`; when it is the last one the operation is a write
slot. -/
theorem driveCheckInTheFirstReleasedTick : Obligations.DriveCheckInTheFirstReleasedTick := by
  intro T x s i o hT hrst hb hi ho hwait htcnt
  have hlow := LineOp.low_pos hT hwait
  have hcheck : lineFault T o s.tcnt.toNat x.owIn = x.owIn := by simp [lineFault_eq hwait, htcnt, hlow.ne']
  refine ⟨_, tick_of_busy T hrst hb hi ho, ?_, ?_⟩
  · rw [tickLine_oe hT x.owIn (isUop_of_programInstr hi), htcnt]
    simp [driveLow]
  obtain ⟨y, p, ⟨hf, h⟩ | ⟨hf, hend, h⟩ | ⟨hf, -, h⟩⟩ := tickLine_cases T x.owIn i o s <;> rw [h] <;> rw [hcheck] at hf
  · exact ⟨fun _ => ⟨rfl, rfl, rfl, rfl, rfl, rfl, rfl, rfl⟩, by simp [hf]⟩
  · obtain ⟨b, rfl⟩ := write_of_len_eq hT hwait (htcnt ▸ hend)
    obtain ⟨herr, hfstep, hdone, hbusy⟩ := (endLineOp_cases (isUop_of_programInstr hi)
      { s with sr := y, pres := p, tcnt := 0, oe := driveLow T (.write b) s.tcnt.toNat x.owIn }).of_write hi
      ((lineOp_congr rfl rfl i).trans ho)
    exact ⟨by simp [hf], fun _ => ⟨herr, hfstep, hdone, hbusy.trans hb, by omega⟩⟩
  · exact ⟨by simp [hf], fun _ => ⟨rfl, rfl, rfl, hb, fun _ => ⟨rfl, rfl, rfl⟩⟩⟩

end Sys2Proof.Machine
end

section
/-! ### The line operations of a micro-operation and of a command, and their lengths (R180 to R182) -/

namespace Sys2Proof.Machine

/-- The line operations of a micro-operation on the patterns `pat` (R170); no other instruction has any of its own. -/
def lineOps (pat : Bytes8) (i : Instr) : List LineOp :=
  match i with
  | .reset => [.reset]
  | .wbyte v => (byteBits v).map .write
  | .wbit b => [.write b]
  | .wbitp k j => [.write (patBit pat k j)]
  | .rbyte _ _ => List.replicate 8 .read
  | .wait10 => [.wait]
  | _ => []

/-- The ticks of line operations one after the other (R153). -/
def opsTicks (T : Timing) (ops : List LineOp) : Nat := (ops.map (LineOp.len T)).sum

@[simp] theorem opsTicks_nil (T : Timing) : opsTicks T [] = 0 := rfl

@[simp] theorem opsTicks_cons (T : Timing) (o : LineOp) (ops : List LineOp) :
    opsTicks T (o :: ops) = o.len T + opsTicks T ops := by
  simp [opsTicks]

@[simp] theorem opsTicks_append (T : Timing) (ops rest : List LineOp) :
    opsTicks T (ops ++ rest) = opsTicks T ops + opsTicks T rest := by
  simp [opsTicks]

@[simp] theorem opsTicks_replicate (T : Timing) (n : Nat) (o : LineOp) :
    opsTicks T (List.replicate n o) = n * o.len T := by
  simp [opsTicks]

theorem opsTicks_flatMap {α : Type} (T : Timing) (f : α → List LineOp) (l : List α) :
    opsTicks T (l.flatMap f) = (l.map fun a => opsTicks T (f a)).sum := by
  induction l with
  | nil => rfl
  | cons a l ih => simp [ih]

/-- Write slots last by the number of their 1 bits (R163, R180). -/
theorem opsTicks_writes (T : Timing) (bits : List Bool) : opsTicks T (bits.map .write) =
    bits.count true * (T.tA + T.tB) + (bits.length - bits.count true) * (T.tC + T.tD) := by
  have hfalse : bits.length - bits.count true = bits.count false := by
    rw [← List.count_true_add_count_false bits, Nat.add_sub_cancel_left]
  rw [hfalse]
  clear hfalse
  induction bits with
  | nil => simp
  | cons b bits ih =>
    rw [List.map_cons, opsTicks_cons, ih]
    cases b <;> simp [LineOp.len] <;> ring

/-- A micro-operation lasts as long as its line operations (R153, R180). -/
theorem instrTicks_eq (T : Timing) (pat : Bytes8) (i : Instr) : instrTicks T pat i = opsTicks T (lineOps pat i) := by
  cases i
  case wbyte v => simp [instrTicks, lineOps, opsTicks, Function.comp_def]
  case rbyte d k => exact (opsTicks_replicate T 8 .read).symm
  all_goals rfl

/-- The line operations of a complete command (R153). -/
def commandOps (pat : Bytes8) (o : Op) : List LineOp := (progInstrs o).flatMap (lineOps pat)

/-- A complete command lasts as long as its line operations (R153, R181, R182). -/
theorem commandTicks_eq (T : Timing) (pat : Bytes8) (o : Op) :
    commandTicks T pat o = opsTicks T (commandOps pat o) := by
  rw [commandOps, opsTicks_flatMap, commandTicks]
  congr 2
  exact funext fun i => instrTicks_eq T pat i

/-- The write slots of state 6, each with its wait (R191, R217). -/
theorem codecWords_ops (pat : Bytes8) (k : Fin 8) :
    ((codecWords k).filterMap fun w => (decodeUop w).toOption).flatMap (lineOps pat) =
      (byteBits pat[k]).flatMap fun b => [.write b, .wait] := by
  have h := congrArg (List.filterMap id) (codecWords_instrs k)
  rw [List.filterMap_map] at h
  rw [show (fun w => (decodeUop w).toOption) = id ∘ fun w => (decodeUop w).toOption from rfl, h]
  rfl

/-- The line operations that read a file out (R200). -/
def readRomOps : List LineOp := .reset :: ((byteBits 0x33).map .write ++ List.replicate 64 .read)

/-- The line operations of a READ (R181, R203). -/
theorem commandOps_read (pat : Bytes8) : commandOps pat .read = readRomOps := by
  rfl

/-- The line operations of a control frame (R102). -/
def controlOps (arm : Bool) : List LineOp := .reset :: ((byteBits 0xD1).map .write ++ [.write arm, .wait])

/-- The line operations of a REWRITE: states 1 to 5, the 64 pattern bits of state 6, states 7 to 10 (R182, R217). -/
theorem commandOps_rewrite (pat : Bytes8) : commandOps pat .rewrite =
    (readRomOps ++ controlOps false ++ .reset :: (byteBits 0xD5).map .write) ++
    ((indices.flatMap fun k => byteBits pat[k]).flatMap fun b => [.write b, .wait]) ++
    (controlOps true ++ readRomOps) := by
  rw [commandOps, progInstrs, progWords, rewriteWords, List.filterMap_append, List.filterMap_append,
    List.flatMap_append, List.flatMap_append, List.filterMap_flatMap, List.flatMap_assoc, List.flatMap_assoc]
  simp only [codecWords_ops]
  rfl

/-- Write slots with a wait after each (R191). -/
theorem opsTicks_writes_waits (T : Timing) (bits : List Bool) : opsTicks T (bits.flatMap fun b => [.write b, .wait]) =
    opsTicks T (bits.map .write) + bits.length * T.tSettle := by
  induction bits with
  | nil => simp
  | cons b bits ih =>
    simp [ih, LineOp.len]
    ring

/-- Reading a file out sends four bits of each kind (R101, R181). -/
theorem opsTicks_readRomOps (T : Timing) : opsTicks T readRomOps =
    (T.tH + T.tI + T.tJ) + (4 * (T.tA + T.tB) + 4 * (T.tC + T.tD)) + 64 * (T.tA + T.tE + T.tF) := by
  rw [readRomOps, opsTicks_cons, opsTicks_append, opsTicks_writes, opsTicks_replicate, ← Nat.add_assoc]
  rfl

/-- A control frame sends four bits of each kind beside its `arm` bit (R102, R182). -/
theorem opsTicks_controlOps (T : Timing) (arm : Bool) : opsTicks T (controlOps arm) =
    (T.tH + T.tI + T.tJ) + (4 * (T.tA + T.tB) + 4 * (T.tC + T.tD)) + (LineOp.write arm).len T + T.tSettle := by
  rw [controlOps, opsTicks_cons, opsTicks_append, opsTicks_writes, ← Nat.add_assoc, Nat.add_assoc _ _ T.tSettle]
  rfl

/-- Settles O60: a micro-operation by its line operations, a command by its listing of them (`commandOps_read`,
`commandOps_rewrite`), and runs of write slots by their 1 bits (`opsTicks_writes`). -/
theorem commandLengths : Obligations.CommandLengths := by
  refine ⟨fun T pat v d k i => ⟨rfl, rfl, rfl, rfl, ?_, rfl, rfl⟩, fun T pat => ?_, fun T pat => ?_⟩
  · rw [instrTicks_eq, lineOps, opsTicks_writes, byteBits_length]
  · rw [commandTicks_eq, commandOps_read, opsTicks_readRomOps]
  · intro ones
    have hones : (byteBits 0xD5).count true = 5 := rfl
    have hlen : (indices.flatMap fun k => byteBits pat[k]).length = 64 := rfl
    rw [commandTicks_eq, commandOps_rewrite]
    simp only [opsTicks_append, opsTicks_cons, opsTicks_writes_waits, opsTicks_readRomOps, opsTicks_controlOps,
      opsTicks_writes, hones, hlen, byteBits_length]
    simp only [LineOp.len, Bool.false_eq_true, if_true, if_false]
    ring

end Sys2Proof.Machine
end

section
/-! ### The ticks a running command has left (R153, R181, R182) -/

namespace Sys2Proof.Machine

/-- A list of which nothing is filtered out is mapped. -/
theorem map_some_filterMap {α β : Type} {f : α → Option β} {l : List α} (h : ∀ a ∈ l, (f a).isSome = true) :
    (l.filterMap f).map some = l.map f := by
  induction l with
  | nil => rfl
  | cons a l ih =>
    obtain ⟨ha, hl⟩ := List.forall_mem_cons.mp h
    obtain ⟨b, hb⟩ := Option.isSome_iff_exists.mp ha
    rw [List.filterMap_cons_some hb, List.map_cons, List.map_cons, ih hl, hb]

/-- Every word of a program is a micro-operation of it (R97). -/
theorem progInstrs_map_some (o : Op) :
    (progInstrs o).map some = (progWords o).map fun w => (decodeUop w).toOption := by
  refine map_some_filterMap fun w hw => ?_
  obtain ⟨i, hi⟩ := progWords_decode o w hw
  rw [hi]
  rfl

theorem progInstrs_length (o : Op) : (progInstrs o).length = progLen o := by
  simpa using congrArg List.length (progInstrs_map_some o)

/-- The micro-operation `UPC` points at stands at `UPC` in its program (R120). -/
theorem progInstrs_getElem? (s : State) : (progInstrs s.op)[s.upc.toNat]? = s.programInstr := by
  have h := congrArg (fun l => l[s.upc.toNat]?.bind id) (progInstrs_map_some s.op)
  simpa [State.programInstr, State.programWord, Option.bind_map, Function.comp_def] using h

/-- The line operations a running command has left, the one in progress first. -/
def State.opsLeft (s : State) : List LineOp :=
  (((progInstrs s.op).drop s.upc.toNat).flatMap (lineOps s.pat)).drop s.biti.toNat

/-- The ticks a running command has left if it completes. -/
def State.ticksLeft (s : State) (T : Timing) : Nat := opsTicks T s.opsLeft - s.tcnt.toNat

/-- A byte is eight line operations, any other micro-operation one (R153, R170). -/
theorem lineOps_length {i : Instr} (hi : IsUop i) (pat : Bytes8) :
    (lineOps pat i).length = if isByteOp i then 8 else 1 := by
  cases hi <;> rfl

/-- `BITI` counts the line operations of a micro-operation (R50, R153). -/
theorem lineOps_drop_biti {s : State} {i : Instr} {o : LineOp} (hi : IsUop i) (ho : lineOp i s = some o)
    (hb : s.biti = 0 ∨ isByteOp i = true) :
    (lineOps s.pat i).drop s.biti.toNat = o :: (lineOps s.pat i).drop (s.biti.toNat + 1) := by
  have hlt : s.biti.toNat < 8 := s.biti.isLt
  cases hi <;> cases ho
  case wbyte v => simp only [lineOps, ← List.map_drop, byteBits_drop v s.biti, List.map_cons]
  case rbyte d k =>
    obtain ⟨n, hn⟩ : ∃ n, 8 - s.biti.toNat = n + 1 := ⟨7 - s.biti.toNat, by omega⟩
    have hn' : 8 - (s.biti.toNat + 1) = n := by omega
    rw [show lineOps s.pat (.rbyte d k) = List.replicate 8 .read from rfl, List.drop_replicate, List.drop_replicate, hn,
      hn', List.replicate_succ]
  all_goals
    have hzero : s.biti = 0 := hb.resolve_right (by simp [isByteOp])
    rw [hzero]
    rfl

section
variable {T : Timing} {s u t : State} {i : Instr} {o : LineOp}

/-- The line operation in progress, those of its micro-operation after it, and those of the micro-operations after. -/
theorem opsLeft_eq (hi : s.programInstr = some i) (ho : lineOp i s = some o) (hb : s.biti = 0 ∨ isByteOp i = true) :
    s.opsLeft = o :: ((lineOps s.pat i).drop (s.biti.toNat + 1) ++
      ((progInstrs s.op).drop (s.upc.toNat + 1)).flatMap (lineOps s.pat)) := by
  have hops := lineOps_drop_biti (isUop_of_programInstr hi) ho hb
  have hle : s.biti.toNat ≤ (lineOps s.pat i).length := by
    have h := congrArg List.length hops
    simp only [List.length_drop, List.length_cons] at h
    omega
  have hprog : (progInstrs s.op).drop s.upc.toNat = i :: (progInstrs s.op).drop (s.upc.toNat + 1) := by
    rw [List.drop_eq_getElem?_toList_append, progInstrs_getElem?, hi]
    rfl
  rw [State.opsLeft, hprog, List.flatMap_cons, List.drop_append_of_le_length hle, hops, List.cons_append]

/-- The end of a line operation takes it off the ones left, unless it aborts the command (R153, R161, R258). -/
theorem State.LineOpEnd.opsLeft (h : u.LineOpEnd i t) (hu : u.Running) (hi : u.programInstr = some i)
    (ho : lineOp i u = some o) (hb : u.biti = 0 ∨ isByteOp i = true) :
    (t.busy = true ∧ t.tcnt = u.tcnt ∧ u.opsLeft = o :: t.opsLeft) ∨
    (t.busy = false ∧ t.valid = true ∧ u.opsLeft = [o]) ∨ (t.busy = false ∧ t.err.Aborts) := by
  have hleft := opsLeft_eq hi ho hb
  cases h with
  | nextSlot _ hc _ hmore hbiti htcnt _ =>
    refine .inl ⟨hc.busy.trans hu.busy, htcnt, ?_⟩
    have htail : t.opsLeft = u.opsLeft.tail := by
      simp only [State.opsLeft, hc.op, hc.upc, hc.pat, hbiti, toNat_add_one_of_ne_seven hmore, List.tail_drop]
    rw [htail, hleft, List.tail_cons]
  | completed t hc hlast hbiti htcnt _ =>
    have hdone : (lineOps u.pat i).drop (u.biti.toNat + 1) = [] := by
      rw [List.drop_eq_nil_iff, lineOps_length (isUop_of_programInstr hi)]
      split
      next h => simp [hlast h]
      next => omega
    have hzero : t.biti = 0 := by grind
    rw [hdone, List.nil_append] at hleft
    obtain ⟨-, ha⟩ | ⟨hend, ha⟩ := advance_cases t
    · left
      rw [hleft, ha]
      refine ⟨hc.busy.trans hu.busy, htcnt, ?_⟩
      simp only [State.opsLeft, hc.op, hc.upc, hc.pat, hzero, toNat_upc_add_one hu.upc_lt]
      rfl
    · right
      left
      rw [ha]
      refine ⟨rfl, rfl, ?_⟩
      rw [hleft, List.drop_eq_nil_of_le (by rw [progInstrs_length, ← hc.op, ← hend, hc.upc]), List.flatMap_nil]
  | raised t e _ he => exact .inr (.inr ⟨rfl, he⟩)

/-- How a tick without `rst` takes a running command further. -/
inductive State.Progress (T : Timing) (s t : State) : Prop
  | goesOn (busy : t.busy = true) (left : s.ticksLeft T = t.ticksLeft T + 1)
  | completes (busy : t.busy = false) (valid : t.valid = true) (left : s.ticksLeft T = 1)
  | aborts (busy : t.busy = false) (err : t.err.Aborts)

/-- The last tick of a line operation takes the last of its ticks off the ones left (R153, R258). -/
theorem State.LineOpEnd.progress (h : u.LineOpEnd i t) (hu : u.Running) (hi : u.programInstr = some i)
    (ho : lineOp i u = some o) (hb : u.biti = 0 ∨ isByteOp i = true) (hzero : u.tcnt = 0)
    (hs : s.opsLeft = u.opsLeft) (hend : s.tcnt.toNat + 1 = o.len T) : s.Progress T t := by
  obtain ⟨htb, htcnt, hops⟩ | ⟨htb, hvalid, hops⟩ | ⟨htb, herr⟩ := h.opsLeft hu hi ho hb
  · have ht : t.tcnt.toNat = 0 := by simp [htcnt, hzero]
    refine .goesOn htb ?_
    rw [State.ticksLeft, State.ticksLeft, hs, hops, ht, opsTicks_cons]
    omega
  · refine .completes htb hvalid ?_
    rw [State.ticksLeft, hs, hops, opsTicks_cons, opsTicks_nil]
    omega
  · exact .aborts htb herr

/-- A running command has a tick left, whatever becomes of it. -/
theorem ticksLeft_pos (hs : s.TickInv T) (hb : s.busy = true) : 0 < s.ticksLeft T := by
  obtain ⟨hlegal, hrun, -⟩ := hs
  obtain ⟨i, hi⟩ := programInstr_legal (hlegal.running hb).upc_lt
  obtain ⟨o, ho⟩ := (isUop_of_programInstr hi).lineOp_isSome s
  obtain ⟨hlt, hbiti⟩ := (lineOk_iff hi ho).mp (hrun hb)
  rw [State.ticksLeft, opsLeft_eq hi ho hbiti, opsTicks_cons]
  omega

/-- A tick of a running command takes one of the ticks it has left, completes it in the last one, or aborts it. -/
theorem tick_progress {x : TickIn} (hT : T.Wf) (hs : s.TickInv T) (hb : s.busy = true) (hrst : x.pins.rst = false)
    (h : tick T x s = .next t) : s.Progress T t := by
  obtain ⟨hlegal, hrun, -⟩ := hs
  have hrunning := hlegal.running hb
  obtain ⟨i, hi⟩ := programInstr_legal hrunning.upc_lt
  obtain ⟨o, ho⟩ := (isUop_of_programInstr hi).lineOp_isSome s
  obtain ⟨hlt, hbiti⟩ := (lineOk_iff hi ho).mp (hrun hb)
  have hlen := o.len_le hT
  have hleft := opsLeft_eq hi ho hbiti
  rw [tick_of_busy T hrst hb hi ho] at h
  cases h
  obtain ⟨y, p, ⟨-, h⟩ | ⟨-, hend, h⟩ | ⟨-, hmore, h⟩⟩ := tickLine_cases T x.owIn i o s <;> rw [h]
  · exact .aborts rfl (.inr rfl)
  · exact (endLineOp_cases (isUop_of_programInstr hi)
      { s with sr := y, pres := p, tcnt := 0, oe := driveLow T o s.tcnt.toNat x.owIn }).progress
      (hrunning.of_sameControl (by simp) rfl) hi ((lineOp_congr rfl rfl i).trans ho) hbiti rfl rfl hend
  · refine .goesOn hb ?_
    have hnext : (s.tcnt + 1).toNat = s.tcnt.toNat + 1 := by bv_omega
    change opsTicks T s.opsLeft - s.tcnt.toNat = opsTicks T s.opsLeft - (s.tcnt + 1).toNat + 1
    rw [hleft, opsTicks_cons, hnext]
    omega
end

end Sys2Proof.Machine
end

section
/-! ### Every command ends in its ticks -/

namespace Sys2Proof.Machine

/-- A running command is busy until it ends, within the ticks it has left; without a `rst` it completes, in exactly
those ticks, or aborts. -/
theorem runTicks_to_end {T : Timing} (hT : T.Wf) (xs : Nat → TickIn) (t0 : Nat) {s : State} (hs : s.TickInv T)
    (hb : s.busy = true) : ∃ n ≤ s.ticksLeft T, (∀ m < n, ∃ u, runTicks T xs t0 m s = .next u ∧ u.busy = true) ∧
      ∃ t, runTicks T xs t0 n s = .next t ∧ t.busy = false ∧ t.TickInv T ∧
        ((∀ m, (xs m).pins.rst = false) → (t.valid = true ∧ n = s.ticksLeft T) ∨ t.err.Aborts) := by
  induction hleft : s.ticksLeft T generalizing s t0 with
  | zero => exact absurd hleft (ticksLeft_pos hs hb).ne'
  | succ k ih =>
    obtain ⟨u, hu⟩ := legalTickNeverStops T (xs t0) s hs
    have hinv := tickKeepsTheInvariant T (xs t0) s u hT hs hu
    have hone : runTicks T xs t0 1 s = .next u := by rw [runTicks_one, hu]
    have hfirst : ∀ m < 1, ∃ u, runTicks T xs t0 m s = .next u ∧ u.busy = true := by
      intro m hm
      obtain rfl : m = 0 := by omega
      exact ⟨s, rfl, hb⟩
    cases hrst : (xs t0).pins.rst with
    | true =>
      have hreset : tick T (xs t0) s = .next s.applyReset := if_pos hrst
      rw [hreset] at hu
      cases hu
      exact ⟨1, by omega, hfirst, _, hone, rfl, hinv, fun h => by simp [h t0] at hrst⟩
    | false =>
      cases tick_progress hT hs hb hrst hu with
      | goesOn hub hticks =>
        obtain ⟨n, hn, hbusy, t, ht, htb, htinv, hresult⟩ := ih (t0 + 1) hinv hub (by omega)
        have hnext (m : Nat) : runTicks T xs t0 (m + 1) s = runTicks T xs (t0 + 1) m u := by
          rw [Nat.add_comm, runTicks_add hone]
        refine ⟨n + 1, by omega, fun m hm => ?_, t, by rw [hnext, ht], htb, htinv, fun h => ?_⟩
        · cases m with
          | zero => exact ⟨s, rfl, hb⟩
          | succ m =>
            rw [hnext]
            exact hbusy m (by omega)
        · exact (hresult h).imp_left fun ⟨hvalid, hk⟩ => ⟨hvalid, by omega⟩
      | completes hub hvalid hticks =>
        exact ⟨1, by omega, hfirst, u, hone, hub, hinv, fun _ => .inl ⟨hvalid, by omega⟩⟩
      | aborts hub herr => exact ⟨1, by omega, hfirst, u, hone, hub, hinv, fun _ => .inr herr⟩

/-- A running command never has more ticks left than a complete run of it takes. -/
theorem ticksLeft_le_commandTicks (T : Timing) (s : State) : s.ticksLeft T ≤ commandTicks T s.pat s.op := by
  have hsub : s.opsLeft.Sublist (commandOps s.pat s.op) :=
    (List.drop_sublist _ _).trans ((List.drop_sublist _ _).flatMap _)
  have hle : opsTicks T s.opsLeft ≤ opsTicks T (commandOps s.pat s.op) :=
    (hsub.map (LineOp.len T)).sum_le_sum fun _ _ => Nat.zero_le _
  rw [commandTicks_eq]
  exact (Nat.sub_le _ _).trans hle

/-- In its first tick a command has the ticks of its complete run left. -/
theorem ticksLeft_of_first_tick (T : Timing) {s : State} (hs : s.AtBoundary) (hu : s.upc = 0) :
    s.ticksLeft T = commandTicks T s.pat s.op := by
  obtain ⟨htcnt, hbiti, -⟩ := hs
  rw [commandTicks_eq]
  simp [State.ticksLeft, State.opsLeft, commandOps, htcnt, hbiti, hu]

/-- With the default parameters both write slots take 70 ticks, so the patterns do not matter (R163, R181, R182). -/
theorem commandTicks_defaults (pat : Bytes8) :
    commandTicks Timing.defaults pat .read = 6000 ∧ commandTicks Timing.defaults pat .rewrite = 681180 := by
  obtain ⟨-, hread, hrewrite⟩ := commandLengths
  have hones : (indices.flatMap fun k => byteBits pat[k]).count true ≤ 64 := List.count_le_length
  refine ⟨(hread _ pat).trans rfl, ?_⟩
  rw [hrewrite]
  simp only [Timing.defaults]
  omega

/-- Settles O58: the run to the end takes at most the ticks left (`runTicks_to_end`). -/
theorem everyCommandEndsInItsTicks : Obligations.EveryCommandEndsInItsTicks := by
  refine ⟨fun T xs t0 s hT hs hb => ?_, commandTicks_defaults⟩
  obtain ⟨n, hn, -, t, ht, htb, -, hresult⟩ := runTicks_to_end hT xs t0 hs hb
  exact ⟨n, hn.trans (ticksLeft_le_commandTicks T s), t, ht, htb, fun h => (hresult h).imp_left And.left⟩

/-- Settles O59: in the first tick the ticks left are the command's (`runTicks_to_end`), and VALID excludes an abort. -/
theorem completeCommandTakesItsTicks : Obligations.CompleteCommandTakesItsTicks := by
  intro T xs t0 s hT hlegal hbound hb hu hrst
  have hticks := ticksLeft_of_first_tick T hbound hu
  obtain ⟨n, hn, hbusy, t, ht, htb, ⟨htlegal, -⟩, hresult⟩ :=
    runTicks_to_end hT xs t0 (tickInv_of_atBoundary hT hlegal hbound) hb
  rw [hticks] at hn hresult
  refine ⟨n, hn, hbusy, t, ht, htb, (hresult hrst).imp_left And.left, fun hvalid => ?_⟩
  obtain ⟨-, hn⟩ | herr := hresult hrst
  · exact hn
  · simp [htlegal.valid_of_aborts herr] at hvalid

end Sys2Proof.Machine
end

section
/-! ### CODEC, slot by slot (R191, R192) -/

namespace Sys2Proof.Machine

/-- `val` reads a string from its last character, where assembly reads wire bits from the first (R14, R63). -/
theorem strVal_eq_assemble (str : Vector Bool 8) : strVal str = assemble str.toList.reverse := by
  simp only [strVal, assemble, List.foldr_reverse, Nat.add_comm]

/-- The wire bits of `val(str)` spell `reverse(str)` (R192). -/
theorem byteBits_strVal (str : Vector Bool 8) : byteBits (strVal str) = str.toList.reverse := by
  rw [strVal_eq_assemble, byteBits_assemble (by simp)]

/-- Settles O31: the eight slots of CODEC k complete (`runSeq_patternSlots`), and they are the wire bits of a byte
(`byteBits_strVal`). -/
theorem codecSpellsTheReversedString : Obligations.CodecSpellsTheReversedString := by
  intro s k l h hlt
  constructor
  · have hlen : (indices.map fun i => (k, i)).length = 8 := rfl
    change Host.Outcome.next (runSeq (codecSeq k) s) = _
    rw [codecSeq_eq, runSeq_patternSlots _ (l := l) h hlt, hlen]
    simp [patBit, List.flatMap_map, Function.comp_def]
  · intro str hstr
    rw [hstr]
    exact byteBits_strVal str

/-- A single-bit write with a Fault answer listed (R122, R123). -/
theorem uopWbit_fault_listed (b : Bool) {s : State} {l : List WriteAnswer} (h : s.ansWrite = .fault :: l) :
    uopWbit b s = .raised .transportTimingFault { s with
      ansWrite := l, trace := s.trace ++ [.wbit b (some 0)] } := by
  rw [uopWbit_fault (writeAnswer_cons s b _ _ h), dropWrite_cons s _ _ h]
  rfl

/-- A run that leaves UPC off 0 has neither raised nor ended the program, so more operations go on from there (R120,
R258, R280). -/
theorem runSeq_append {fs : List (State → Flow)} (gs : List (State → Flow)) {s : State}
    (h : fs = [] ∨ (runSeq fs s).upc ≠ 0) : runSeq (fs ++ gs) s = runSeq gs (runSeq fs s) := by
  induction fs generalizing s with
  | nil => rfl
  | cons f fs ih =>
    have hupc : (runSeq (f :: fs) s).upc ≠ 0 := h.resolve_left (List.cons_ne_nil f fs)
    cases hf : f s with
    | raised e t =>
      rw [runSeq_raised hf] at hupc
      exact absurd (State.abort_upc t e) hupc
    | ok t =>
      cases he : t.atEnd with
      | true =>
        rw [runSeq_end hf he, State.advance_upc, if_pos he] at hupc
        exact absurd rfl hupc
      | false =>
        rw [runSeq_ok hf he] at hupc
        rw [List.cons_append, runSeq_ok hf he, runSeq_ok hf he, ih (.inr hupc)]

/-- Pattern slots whose first fault is at the bit `p`: the bits `ps` before it are sent, `p` and the bits `qs` after it
are not (R123, R191, R280). -/
theorem runSeq_patternSlots_fault (ps qs : List (Fin 8 × Fin 8)) (p : Fin 8 × Fin 8) {s : State} {l : List WriteAnswer}
    (h : s.ansWrite = List.replicate ps.length .ok ++ .fault :: l) (hlt : s.upc.toNat + 2 * ps.length < progLen s.op) :
    runSeq (patternSlots (ps ++ p :: qs)) s = State.abort { s with
      upc := s.upc + BitVec.ofNat 8 (2 * ps.length), ansWrite := l,
      wire := s.wire ++ ps.map fun p => .w (patBit s.pat p.1 p.2),
      trace := s.trace ++ (ps.flatMap fun p => [.wbit (patBit s.pat p.1 p.2) none, .wait10]) ++
        [.wbit (patBit s.pat p.1 p.2) (some 0)] } .transportTimingFault := by
  have hsent := runSeq_patternSlots ps h hlt
  have hupc : patternSlots ps = [] ∨ (runSeq (patternSlots ps) s).upc ≠ 0 := by
    cases ps with
    | nil => exact .inl rfl
    | cons q ps =>
      have hlen := progLen_le s.op
      rw [List.length_cons] at hlt
      rw [hsent, List.length_cons]
      right
      bv_omega
  calc runSeq (patternSlots (ps ++ p :: qs)) s
    _ = runSeq (patternSlots (p :: qs)) (runSeq (patternSlots ps) s) := by
      rw [← runSeq_append _ hupc, patternSlots, List.flatMap_append]
      rfl
    _ = _ := by
      rw [hsent]
      exact runSeq_raised (uopWbit_fault_listed (patBit s.pat p.1 p.2) rfl)

/-- The slots of a byte before slot `n`, slot `n`, and the rest (R63). -/
theorem indices_split (n : Fin 8) : indices = indices.take n.val ++ n :: indices.drop (n.val + 1) := by
  revert n
  decide

/-- The slots before slot `n` are 0 to n-1 (R63). -/
theorem indices_take (n : Fin 8) : (indices.take n.val).map Fin.val = List.range n.val := by
  revert n
  decide

/-- Settles O32: slots 0 to n-1 are sent and slot `n` aborts (`runSeq_patternSlots_fault`). -/
theorem codecFaultEndsTheCommand : Obligations.CodecFaultEndsTheCommand := by
  intro s k n l h hlt
  have hlen : ((indices.take n.val).map fun i => (k, i)).length = n.val := by
    rw [List.length_map, ← List.length_map Fin.val, indices_take, List.length_range]
  have hrun := runSeq_patternSlots_fault ((indices.take n.val).map fun i => (k, i))
    ((indices.drop (n.val + 1)).map fun i => (k, i)) (k, n) (s := s) (l := l) (by rw [hlen, h]) (by omega)
  rw [← List.map_cons (f := fun i => (k, i)), ← List.map_append, ← indices_split, ← codecSeq_eq] at hrun
  refine ⟨runSeq (codecSeq k) s, rfl, ?_⟩
  rw [hrun, ← indices_take n]
  refine ⟨?_, rfl, rfl, rfl, rfl, rfl, rfl, rfl, rfl, rfl⟩
  simp [patBit, Function.comp_def]

end Sys2Proof.Machine
end

section
/-! ### ROMREAD (R200 to R206) -/

namespace Sys2Proof.Machine

/-- A RESET with a presence answer listed (R121). -/
theorem uopReset_presence {s : State} {l : List ResetAnswer} (h : s.ansReset = .presence :: l) :
    uopReset s = .ok { s with
      pres := true, ansReset := l, wire := s.wire ++ [.reset], trace := s.trace ++ [.reset .presence] } := by
  simp only [uopReset, resetAnswer_cons s _ _ h, dropReset_cons s _ _ h]
  rfl

/-- ROMREAD d with presence: the reset, then the bus command that reads eight bytes into the file `d` (R200, R201). -/
theorem runSeq_romread {d : Dest} {bits : List Bool} {s : State} {lp : List ResetAnswer} {lw : List WriteAnswer}
    {lr : List ReadAnswer} (hb : bits.length = 64) (hp : s.ansReset = .presence :: lp)
    (hw : s.ansWrite = List.replicate 8 .ok ++ lw) (hr : s.ansRead = bits.map .bit ++ lr)
    (hlen : s.upc.toNat + 10 ≤ progLen s.op) :
    ∃ v, runSeq (romreadSeq d) s = v.advance ∧ State.BytesRead d bits 8 { s with
        pres := true, upc := s.upc + 1 + 1, ansReset := lp, ansWrite := lw, biti := 0,
        wire := s.wire ++ [.reset] ++ [true, true, false, false, true, true, false, false].map .w,
        trace := s.trace ++ [.reset .presence] ++ [.wbyte 0x33 none] } v ∧
      v.upc = s.upc + 9 ∧ v.busy = s.busy ∧ v.done = s.done := by
  have hnext := toNat_upc_add_one (s := s) (by omega)
  have hreset : runSeq (romreadSeq d) s = runSeq (readRomSeq d) _ :=
    runSeq_next (uopReset_presence hp) (by change s.upc.toNat + 1 < progLen s.op; omega)
  obtain ⟨v, hv, hread, hupc, hkept⟩ := runSeq_readRom (d := d) (lw := lw) (lr := lr) hb hw hr
    (s := { s with
      pres := true, upc := s.upc + 1, ansReset := lp, wire := s.wire ++ [.reset],
      trace := s.trace ++ [.reset .presence] })
    (by change (s.upc + 1).toNat + 9 ≤ progLen s.op; omega)
  exact ⟨v, hreset.trans hv, hread, by simp [hupc, BitVec.add_assoc], hkept⟩

/-- Every call but WAIT10 is a transport call (R135). -/
theorem transportCalls_eq (tr : List Event) :
    transportCalls tr = ((tr.map Event.call).filter fun c => c != .wait10).length := by
  have hcall (e : Event) : (e != .wait10) = (e.call != .wait10) := by
    cases e <;> rfl
  simp only [transportCalls, List.filter_map, List.length_map, hcall, Function.comp_def]

/-- Settles O29: the reset with presence, the byte 0x33 and the eight bytes (`runSeq_romread`), the last of which may
end the program. -/
theorem romreadReadsEightBytes : Obligations.RomreadReadsEightBytes := by
  intro s d bits lp lw lr hb hp hw hr hlen
  have hle := progLen_le s.op
  obtain ⟨v, hv, hread, hupc, hbusy, hdone⟩ := runSeq_romread (d := d) hb hp hw hr hlen
  have hend : v.atEnd = decide (s.upc.toNat + 10 = progLen s.op) := by
    have hvupc : v.upc.toNat = s.upc.toNat + 9 := by bv_omega
    simp only [State.atEnd, hvupc, hread.op]
    rfl
  obtain ⟨hbytes, hrom, hold, hvalid, hwire, ⟨tr, htr, hcalls⟩, hans, hpat, hop, hreset, hwrite⟩ := hread.advance
  have hreadCalls : (.reset .presence :: .wbyte 0x33 none :: tr).map Event.call = readCalls := by
    rw [List.map_cons, List.map_cons, hcalls]
    rfl
  refine ⟨v.advance, congrArg Host.Outcome.next hv, ?_, hold, fun hd => ⟨hrom hd, hvalid hd rfl⟩, ?_,
    ⟨.reset .presence :: .wbyte 0x33 none :: tr, ?_, hreadCalls, ?_⟩, hpat, hop, hreset, hwrite, ?_, ?_, ?_⟩
  · intro k i
    have hbyte := hbytes k i k.isLt
    cases d <;> exact hbyte
  · rw [hwire, List.take_of_length_le hb.le]
    simp
  · rw [htr]
    simp
  · rw [transportCalls_eq, hreadCalls]
    rfl
  · rw [hans, hr]
    exact List.drop_left' (by simp [hb])
  · intro hlt
    simp [hend, hlt.ne, hupc, hbusy, hdone, BitVec.add_assoc]
  · intro heq
    simp [hend, heq]

/-- A RESET that finds no presence, or faults, aborts with one call made (R202). -/
theorem uopReset_raised {s : State} (h : s.resetAnswer ≠ .presence) :
    ∃ e t, uopReset s = .raised e t ∧ e.Aborts ∧ t.trace = s.trace ++ [.reset s.resetAnswer] ∧
      t.romcode = s.romcode ∧ t.oldcode = s.oldcode := by
  obtain ⟨ha, -⟩ | ⟨ha, hr⟩ | ⟨ha, hr⟩ := uopReset_cases s
  · exact absurd ha h
  · exact ⟨_, _, hr, .inl rfl, by rw [ha]; rfl, rfl, rfl⟩
  · exact ⟨_, _, hr, .inr rfl, by rw [ha]; rfl, rfl, rfl⟩

/-- Settles O30: the run ends with its first micro-operation, the RESET that raises (`uopReset_raised`). -/
theorem romreadEndsWithoutPresence : Obligations.RomreadEndsWithoutPresence := by
  intro s d h
  obtain ⟨e, t, hr, he, htrace, hrom, hold⟩ := uopReset_raised h
  have hromread : exec (.romread d) s = .next (t.abort e) := congrArg Host.Outcome.next (runSeq_raised hr)
  have hreset : exec .reset s = .next (t.abort e) := by
    simp only [exec, execReset, hr, Flow.finish_raised]
  exact ⟨hromread.trans hreset.symm, t.abort e, hromread, htrace, rfl, rfl, he, hrom, hold⟩

end Sys2Proof.Machine
end

section
/-! ### The two micro-programs (R203, R217) -/

namespace Sys2Proof.Machine

/-- The micro-operations of the READ program (R203). -/
theorem progInstrs_read : progInstrs .read = .reset :: .wbyte 0x33 :: indices.map (.rbyte .romcode) := by
  rfl

/-- The micro-operations of one byte of state 6 (R191, R217). -/
theorem codecWords_filterMap (k : Fin 8) : ((codecWords k).filterMap fun w => (decodeUop w).toOption) =
    indices.flatMap fun i => [.wbitp k i, .wait10] :=
  calc ((codecWords k).filterMap fun w => (decodeUop w).toOption)
    _ = ((codecWords k).map fun w => (decodeUop w).toOption).filterMap id := by
      rw [List.filterMap_map]
      rfl
    _ = indices.flatMap fun i => [.wbitp k i, .wait10] := by
      rw [codecWords_instrs]
      rfl

/-- The micro-operations of the REWRITE program: states 1 to 5, state 6 byte by byte, states 7 to 10 (R217). -/
theorem progInstrs_rewrite : progInstrs .rewrite =
    (.reset :: .wbyte 0x33 :: indices.map (.rbyte .oldcode)) ++
    ([.reset, .wbyte 0xD1, .wbit false, .wait10, .reset, .wbyte 0xD5] ++
    ((indices.flatMap fun k => indices.flatMap fun i => [.wbitp k i, .wait10]) ++
    ([.reset, .wbyte 0xD1, .wbit true, .wait10] ++
    (.reset :: .wbyte 0x33 :: indices.map (.rbyte .romcode))))) := by
  simp only [progInstrs, progWords, rewriteWords, List.filterMap_append, List.filterMap_flatMap, codecWords_filterMap]
  rfl

/-- Settles O34, word by word of the two programs. -/
theorem programsAreTheListings : Obligations.ProgramsAreTheListings :=
  ⟨progWords_length .read, progWords_length .rewrite, progInstrs_read, progInstrs_rewrite⟩

end Sys2Proof.Machine
end

section
/-! ### A command left alone is the run of its micro-operations (R120) -/

namespace Sys2Proof.Machine

/-- A transport operation that completes leaves BUSY to the advance after it (R120). -/
theorem uopFlow_ok_busy {i : Instr} (hi : IsUop i) {s t : State} (h : uopFlow i s = .ok t) : t.busy = s.busy := by
  cases hi with
  | reset =>
    obtain ⟨-, hr⟩ | ⟨-, hr⟩ | ⟨-, hr⟩ := uopReset_cases s <;> cases hr.symm.trans h
    rfl
  | wbyte v =>
    obtain ⟨_, _, _, _, hr | hr⟩ := uopWbyte_cases v s <;> cases hr.symm.trans h
    rfl
  | wbit b =>
    obtain ⟨-, hr⟩ | ⟨-, hr⟩ := uopWbit_cases b s <;> cases hr.symm.trans h
    rfl
  | wbitp k j =>
    obtain ⟨-, hr⟩ | ⟨-, hr⟩ := uopWbit_cases (patBit s.pat k j) s <;> cases hr.symm.trans h
    rfl
  | rbyte d k =>
    obtain ⟨_, _, _, _, _, hr | hr⟩ := uopRbyte_cases d k s <;> cases hr.symm.trans h
    simp
  | wait10 =>
    cases h
    rfl

/-- A run of a running command goes on exactly while BUSY stays 1 (R120, R258, R280). -/
theorem runSeq_uop {i : Instr} (hi : IsUop i) {s : State} (hb : s.busy = true) (rest : List (State → Flow)) :
    runSeq (uopFlow i :: rest) s =
      if (uopFlow i s).finish.busy then runSeq rest (uopFlow i s).finish else (uopFlow i s).finish := by
  cases hf : uopFlow i s with
  | raised e t => simp [runSeq_raised hf]
  | ok t =>
    have ht : t.busy = true := (uopFlow_ok_busy hi hf).trans hb
    cases he : t.atEnd with
    | true => simp [runSeq_end hf he, he]
    | false => simp [runSeq_ok hf he, he, ht]

/-- An idle core left alone stays as it is (R253). -/
theorem runSteps_of_idle_quiet {s : State} (hp : s.pins = []) (hslot : s.slot = none) (hb : s.busy = false) (n : Nat) :
    runSteps n s = .next s := by
  induction n with
  | zero => rfl
  | succ n ih => simp only [runSteps, step_of_idle_quiet hp hslot hb, ih]

/-- The steps of a command left alone are one run of the micro-operations it has left: both end with the first that
raises, and with the last. -/
theorem runSteps_eq_runSeq {is : List Instr} {s : State} (hs : s.Inv) (hp : s.pins = []) (hb : s.busy = true)
    (his : (progInstrs s.op).drop s.upc.toNat = is) :
    runSteps is.length s = .next (runSeq (is.map uopFlow) s) := by
  induction is generalizing s with
  | nil => rfl
  | cons i is ih =>
    have ⟨_, _, hslot⟩ := hs
    have hi : s.programInstr = some i := by
      rw [← progInstrs_getElem?, ← List.head?_drop, his, List.head?_cons]
    have hu := isUop_of_programInstr hi
    have hexec := hu.exec_eq s
    have hstep := (step_of_busy_quiet hp hslot hb hi).trans hexec
    have ht := stepKeepsTheInvariant _ _ hs hstep
    obtain ⟨-, -, hpins⟩ := (exec_uop_outcome hu hexec).command_eq
    simp only [List.length_cons, runSteps, hstep, List.map_cons, runSeq_uop hu hb]
    cases htb : (uopFlow i s).finish.busy with
    | false =>
      have ⟨_, _, htslot⟩ := ht
      simp [runSteps_of_idle_quiet (hpins.trans hp) htslot htb]
    | true =>
      obtain ⟨hop, hupc⟩ := step_still_busy hs hb hstep htb
      rw [ih ht (hpins.trans hp) htb (by rw [hop, hupc, ← List.drop_drop, his]; rfl)]
      rfl

/-- Every step of a legal core keeps it legal, so any number does. -/
theorem runSteps_inv (n : Nat) {s : State} (hs : s.Inv) : ∃ t, runSteps n s = .next t ∧ t.Inv :=
  runSteps_of_step_keeps (P := State.Inv)
    (fun u hu => (legalStepNeverStops u hu).imp fun t ht => ⟨ht, stepKeepsTheInvariant u t hu ht⟩) n hs

end Sys2Proof.Machine
end

section
/-! ### A complete READ (R204) -/

namespace Sys2Proof.Machine

/-- A READ left alone is ROMREAD ROMCODE, from its acceptance on (R203). -/
theorem State.CommandGiven.runSteps_read {s : State} {p : Pins} (h : s.CommandGiven p .read) :
    runSteps 11 s = exec (.romread .romcode) (s.fetched.accept .read) := by
  have ⟨hinv, _, hpins, _⟩ := h
  have hstep := step_of_given_read h
  have hrun := runSteps_eq_runSeq (stepKeepsTheInvariant _ _ hinv hstep) (by simp [hpins]) rfl
    (is := progInstrs .read) rfl
  rw [progInstrs_read] at hrun
  rw [runSteps, hstep]
  exact hrun

/-- The flags of a core whose READ is valid (R37, R38, R39). -/
theorem State.Legal.read_flags {t : State} (h : t.Legal) (hv : t.valid = true) (ho : t.op = .read) :
    t.oldvalid = false ∧ t.matched = false ∧ t.err = .none ∧ t.fstep = .idle := by
  have hop : t.op ≠ .rewrite := by simp [ho]
  have herr : ¬ t.err.Aborts := mt h.valid_of_aborts (by simp [hv])
  obtain ⟨-, -, hvalid, hmatched, hold, -, hmismatch, -⟩ := h
  obtain ⟨-, hfstep, -⟩ := hvalid hv
  refine ⟨Bool.eq_false_iff.mpr (mt hold hop), Bool.eq_false_iff.mpr fun hm => ?_, ?_, hfstep⟩
  · obtain ⟨-, hrewrite, -⟩ := hmatched hm
    exact hop hrewrite
  · cases he : t.err with
    | none => rfl
    | noDevicePresent => exact absurd (.inl he) herr
    | transportTimingFault => exact absurd (.inr he) herr
    | verificationMismatch =>
      obtain ⟨-, hrewrite, -⟩ := hmismatch.mp he
      exact absurd hrewrite hop

/-- STATUS after a complete READ (R40). -/
theorem status_of_complete_read {t : State} (ho : t.op = .read) (hb : t.busy = false) (hd : t.done = true)
    (hv : t.valid = true) (hold : t.oldvalid = false) (hm : t.matched = false) (he : t.err = .none)
    (hf : t.fstep = .idle) : t.status = 0x0006#16 := by
  simp only [State.status, stepCode_of_not_busy hb, ho, hb, hd, hv, hold, hm, he, hf]
  rfl

/-- Settles O45: the READ is ROMREAD ROMCODE (`runSteps_read`), which reads the eight bytes and completes the program
(`romreadReadsEightBytes`); what the other flags then say, they say in every legal state (`read_flags`). -/
theorem completeReadResult : Obligations.CompleteReadResult := by
  intro s p bits lp lw lr hgiven hb hp hw hr
  have ⟨hinv, _, _, _⟩ := hgiven
  obtain ⟨t, hexec, hbytes, hold, -, -, -, hpat, hop, -, -, -, -, hend⟩ :=
    romreadReadsEightBytes (s.fetched.accept .read) .romcode bits lp lw lr hb hp hw hr le_rfl
  have hrun : runSteps 11 s = .next t := hgiven.runSteps_read.trans hexec
  obtain ⟨-, hbusy, hdone, hvalid⟩ := hend rfl
  obtain ⟨u, hu, hlegal, -⟩ := runSteps_inv 11 hinv
  cases hu.symm.trans hrun
  obtain ⟨holdvalid, hmatched, herr, hfstep⟩ := hlegal.read_flags hvalid hop
  exact ⟨t, hrun, hbytes, hvalid, hdone, hbusy, herr, hmatched, holdvalid, hfstep,
    status_of_complete_read hop hbusy hdone hvalid holdvalid hmatched herr hfstep, (hold rfl).1, hpat⟩

end Sys2Proof.Machine
end

section
/-! ### A complete REWRITE (R234, R236) -/

namespace Sys2Proof.Machine

/-- The micro-operations `fs` send `n` write slots in `m` micro-operations, and touch nothing but the write answers,
`UPC`, `BITI` and the histories on their way (R102, R103). -/
def WriteFrame (fs : List (State → Flow)) (n m : Nat) : Prop :=
  ∀ (s : State) (l : List WriteAnswer), s.ansWrite = List.replicate n .ok ++ l → s.upc.toNat + m < progLen s.op →
    ∃ w tr, runSeq fs s =
      { s with upc := s.upc + BitVec.ofNat 8 m, ansWrite := l, biti := 0, wire := w, trace := tr }

theorem writeFrame_control (arm : Bool) : WriteFrame (writeControlSeq arm) 9 3 := fun _ _ h hlt =>
  ⟨_, _, runSeq_writeControl arm h hlt⟩

theorem writeFrame_data : WriteFrame writeDataSeq 72 129 := fun s l h hlt =>
  ⟨_, _, Host.Outcome.next.inj (writeDataFrameSendsThePatterns s l h hlt)⟩

/-- A REWRITE of the patterns `pat` at `UPC` `n`, with OLDCODE read and `p` presences and `w` Ok answers to come. -/
structure State.RewriteAt (pat oldcode : Bytes8) (lp : List ResetAnswer) (lw : List WriteAnswer)
    (lr : List ReadAnswer) (n p w : Nat) (s : State) : Prop where
  op : s.op = .rewrite
  upc : s.upc.toNat = n
  pat : s.pat = pat
  oldcode : s.oldcode = oldcode
  ansReset : s.ansReset = List.replicate p .presence ++ lp
  ansWrite : s.ansWrite = List.replicate w .ok ++ lw
  ansRead : s.ansRead = lr

section
variable {pat oldcode : Bytes8} {lp : List ResetAnswer} {lw : List WriteAnswer} {lr : List ReadAnswer}

/-- A reset with presence takes a REWRITE one micro-operation further (R121). -/
theorem State.RewriteAt.reset {n p w : Nat} {s : State} (hs : s.RewriteAt pat oldcode lp lw lr n (p + 1) w)
    (rest : List (State → Flow)) (hlt : n + 1 < 158) :
    ∃ t, runSeq (uopReset :: rest) s = runSeq rest t ∧ t.RewriteAt pat oldcode lp lw lr (n + 1) p w := by
  obtain ⟨hop, hupc, hpat, hold, hp, hw, hr⟩ := hs
  have hlen : progLen s.op = 158 := by rw [hop]; rfl
  have hnext : (s.upc + 1).toNat = n + 1 := by bv_omega
  exact ⟨_, runSeq_next (uopReset_presence hp) (by change s.upc.toNat + 1 < progLen s.op; omega),
    hop, hnext, hpat, hold, rfl, hw, hr⟩

/-- A write frame takes a REWRITE to the micro-operations after it (R102, R103). -/
theorem State.RewriteAt.writeFrame {n p w k m : Nat} {s : State} (hs : s.RewriteAt pat oldcode lp lw lr n p (w + k))
    {fs : List (State → Flow)} (hf : WriteFrame fs k m) (rest : List (State → Flow)) (hn : 0 < n)
    (hlt : n + m < 158) :
    ∃ t, runSeq (fs ++ rest) s = runSeq rest t ∧ t.RewriteAt pat oldcode lp lw lr (n + m) p w := by
  obtain ⟨hop, hupc, hpat, hold, hp, hw, hr⟩ := hs
  have hlen : progLen s.op = 158 := by rw [hop]; rfl
  obtain ⟨x, tr, hframe⟩ := hf s (List.replicate w .ok ++ lw)
    (by rw [hw, Nat.add_comm, List.replicate_add, List.append_assoc]) (by omega)
  have hnext : (s.upc + BitVec.ofNat 8 m).toNat = n + m := by bv_omega
  have hne : (runSeq fs s).upc ≠ 0 := by
    rw [hframe]
    bv_omega
  exact ⟨_, (runSeq_append rest (.inr hne)).trans (congrArg (runSeq rest) hframe), hop, hnext, hpat, hold, hp, rfl, hr⟩

/-- A reset with presence and a write frame, as they stand in the REWRITE program (R217). -/
theorem State.RewriteAt.reset_writeFrame {n p w k m : Nat} {s : State}
    (hs : s.RewriteAt pat oldcode lp lw lr n (p + 1) (w + k)) {fs : List (State → Flow)} (hf : WriteFrame fs k m)
    (rest : List (State → Flow)) (hlt : n + 1 + m < 158) :
    ∃ t, runSeq (uopReset :: (fs ++ rest)) s = runSeq rest t ∧ t.RewriteAt pat oldcode lp lw lr (n + 1 + m) p w := by
  obtain ⟨u, hu, hreset⟩ := hs.reset (fs ++ rest) (by omega)
  obtain ⟨t, ht, hframe⟩ := hreset.writeFrame hf rest (by omega) hlt
  exact ⟨t, hu.trans ht, hframe⟩
end

/-- The micro-operations of a REWRITE: it reads the old identifier, arms, sends the patterns, disarms and reads back
(R217). -/
theorem progInstrs_rewrite_flows : (progInstrs .rewrite).map uopFlow = romreadSeq .oldcode ++
    uopReset :: (writeControlSeq false ++ uopReset :: (writeDataSeq ++ uopReset :: (writeControlSeq true ++
      romreadSeq .romcode))) := by
  rw [progInstrs_rewrite]
  rfl

/-- A REWRITE of the patterns `pat` has completed in `t`, with the bits `old` and `new` read (R234). -/
structure State.Rewritten (pat : Bytes8) (old new : List Bool) (t : State) : Prop where
  oldcode : ∀ k i : Fin 8, old[8 * k.val + i.val]? = some (t.oldcode[k].getLsbD i.val)
  romcode : ∀ k i : Fin 8, new[8 * k.val + i.val]? = some (t.romcode[k].getLsbD i.val)
  pat : t.pat = pat
  op : t.op = .rewrite
  busy : t.busy = false
  valid : t.valid = true

/-- The run of the REWRITE program that no answer cuts short (R234): two ROMREADs, and three write frames between. -/
theorem runSeq_rewrite {s : State} {old new : List Bool} {lp : List ResetAnswer} {lw : List WriteAnswer}
    {lr : List ReadAnswer} (hop : s.op = .rewrite) (hupc : s.upc = 0) (hold : old.length = 64)
    (hnew : new.length = 64) (hp : s.ansReset = List.replicate 5 .presence ++ lp)
    (hw : s.ansWrite = List.replicate 106 .ok ++ lw) (hr : s.ansRead = (old ++ new).map .bit ++ lr) :
    (runSeq ((progInstrs .rewrite).map uopFlow) s).Rewritten s.pat old new := by
  have hlen : progLen s.op = 158 := by rw [hop]; rfl
  obtain ⟨t, ht, holdbits, -, -, -, -, htpat, htop, htp, htw, htr, hgoes, -⟩ :=
    romreadReadsEightBytes s .oldcode old (List.replicate 4 ResetAnswer.presence ++ lp)
      (List.replicate 98 WriteAnswer.ok ++ lw) (new.map ReadAnswer.bit ++ lr) hold hp hw (by simpa using hr)
      (by rw [hlen, hupc]; decide)
  obtain ⟨htupc, -⟩ := hgoes (by rw [hlen, hupc]; decide)
  have hread : runSeq (romreadSeq .oldcode) s = t := Host.Outcome.next.inj ht
  have h10 : t.RewriteAt s.pat t.oldcode lp lw (new.map .bit ++ lr) 10 4 98 :=
    ⟨htop.trans hop, by rw [htupc, hupc]; rfl, htpat, rfl, htp, htw, htr⟩
  obtain ⟨u, hu, h14⟩ := h10.reset_writeFrame (p := 3) (w := 89) (writeFrame_control false)
    (uopReset :: (writeDataSeq ++ uopReset :: (writeControlSeq true ++ romreadSeq .romcode))) (by decide)
  obtain ⟨v, hv, h144⟩ := h14.reset_writeFrame (p := 2) (w := 17) writeFrame_data
    (uopReset :: (writeControlSeq true ++ romreadSeq .romcode)) (by decide)
  obtain ⟨x, hx, xop, xupc, xpat, xold, xp, xw, xr⟩ := h144.reset_writeFrame (p := 1) (w := 8)
    (writeFrame_control true) (romreadSeq .romcode) (by decide)
  have hxlen : x.upc.toNat + 10 = progLen x.op := by rw [xupc, xop]; rfl
  obtain ⟨y, hy, hnewbits, hkeeps, -, -, -, hypat, hyop, -, -, -, -, hends⟩ :=
    romreadReadsEightBytes x .romcode new lp lw lr hnew xp xw xr hxlen.le
  obtain ⟨-, hybusy, -, hyvalid⟩ := hends hxlen
  have hrun : runSeq ((progInstrs .rewrite).map uopFlow) s = y := by
    have hupc10 : t.upc ≠ 0 := by rw [htupc, hupc]; decide
    rw [progInstrs_rewrite_flows, runSeq_append _ (.inr (by rwa [hread])), hread, hu, hv, hx]
    exact Host.Outcome.next.inj hy
  obtain ⟨hyold, -⟩ := hkeeps rfl
  rw [hrun]
  refine ⟨?_, hnewbits, hypat.trans xpat, hyop.trans xop, hybusy, hyvalid⟩
  rw [hyold, xold]
  exact holdbits

/-- A REWRITE left alone is the run of its program, from its acceptance on (R217, R256). -/
theorem State.CommandGiven.runSteps_rewrite {s : State} {p : Pins} (h : s.CommandGiven p .rewrite) :
    runSteps 159 s =
      .next (runSeq ((progInstrs .rewrite).map uopFlow) ((s.fetched.accept .rewrite).latchPat p.patIn)) := by
  have ⟨hinv, _, hpins, _⟩ := h
  have hstep := step_of_given_rewrite h
  have hrun := runSteps_eq_runSeq (stepKeepsTheInvariant _ _ hinv hstep) (by simp [hpins]) rfl
    (is := progInstrs .rewrite) rfl
  rw [progInstrs_length] at hrun
  rw [runSteps, hstep]
  exact hrun

/-- The flags of a core whose REWRITE is valid (R37 to R39, R232, R233). -/
theorem State.Legal.rewrite_flags {t : State} (h : t.Legal) (hv : t.valid = true) (ho : t.op = .rewrite) :
    t.done = true ∧ t.oldvalid = true ∧ t.fstep = .idle ∧ t.matched = t.matches ∧
      t.err = if t.matched then .none else .verificationMismatch := by
  have herr : ¬ t.err.Aborts := mt h.valid_of_aborts (by simp [hv])
  obtain ⟨-, -, hvalid, hmatched, -, -, hmismatch, -⟩ := h
  obtain ⟨hdone, hfstep, hrewrite⟩ := hvalid hv
  obtain ⟨hold, hmatches⟩ := hrewrite ho
  refine ⟨hdone, hold, hfstep, hmatches, ?_⟩
  cases hm : t.matched with
  | true =>
    obtain ⟨-, -, he⟩ := hmatched hm
    exact he
  | false => exact hmismatch.mpr ⟨hv, ho, hm⟩

/-- STATUS after a complete REWRITE (R40, R234). -/
theorem State.Legal.status_of_rewrite {t : State} (h : t.Legal) (hb : t.busy = false) (hv : t.valid = true)
    (ho : t.op = .rewrite) : t.status = if t.matched then 0x009E#16 else 0x00EE#16 := by
  obtain ⟨hd, hold, hf, -, he⟩ := h.rewrite_flags hv ho
  simp only [State.status, stepCode_of_not_busy hb, ho, hb, hd, hv, hold, he, hf]
  cases t.matched <;> rfl

/-- Of the 158 calls of a REWRITE 66 are waits (R236). -/
theorem transportCalls_rewrite (pat : Bytes8) : ((rewriteCalls pat).filter fun c => c != .wait10).length = 92 := by
  rfl

/-- Settles O46: the REWRITE is the run of its program (`runSteps_rewrite`, `runSeq_rewrite`), the flags of a valid
REWRITE are the same in every legal state, and its trace is whole (`traceIsPrefixOfItsProgram`). -/
theorem completeRewriteResult : Obligations.CompleteRewriteResult := by
  intro s p old new lp lw lr hgiven hold hnew hp hw hr
  have ⟨hinv, _, _, _⟩ := hgiven
  obtain ⟨t, ht, tr, htrace, -, -, hwhole, -⟩ := traceIsPrefixOfItsProgram s p .rewrite 158 hgiven
  obtain ⟨u, hu, hlegal, -⟩ := runSteps_inv 159 hinv
  cases hu.symm.trans ht
  have hrewritten : t.Rewritten (unpackPort p.patIn) old new := by
    rw [Host.Outcome.next.inj (ht.symm.trans hgiven.runSteps_rewrite)]
    exact runSeq_rewrite (s := (s.fetched.accept .rewrite).latchPat p.patIn) rfl rfl hold hnew hp hw hr
  obtain ⟨holdbits, hnewbits, hpat, hop, hbusy, hvalid⟩ := hrewritten
  obtain ⟨hdone, holdvalid, hfstep, hmatches, herr⟩ := hlegal.rewrite_flags hvalid hop
  obtain ⟨hcalls, -⟩ := hwhole.mp hvalid
  rw [← hpat] at hcalls
  have ⟨⟨_, hupc⟩, _⟩ := hlegal
  refine ⟨t, ht, holdbits, hnewbits, fun k => by rw [hpat, unpackPort_getElem], ?_, herr, ?_, holdvalid, hvalid, hdone,
    hbusy, hfstep, hop, hupc hbusy, stepCode_of_not_busy hbusy, tr, htrace, hcalls, ?_, ?_⟩
  · rw [hmatches, State.matches_iff]
  · exact hlegal.status_of_rewrite hbusy hvalid hop
  · rw [← List.length_map Event.call, hcalls]
    exact commandCalls_length t.pat .rewrite
  · rw [transportCalls_eq, hcalls]
    exact transportCalls_rewrite t.pat

end Sys2Proof.Machine
end

section
/-! ### Completion (R232, R233, R258) -/

namespace Sys2Proof.Machine

theorem progLen_eq (o : Op) : progLen o = if o = .read then 10 else 158 := by
  cases o <;> rfl

/-- A READ completes with MATCH and ERR as they are (R258). -/
theorem complete_of_read {s : State} (ho : s.op = .read) :
    s.complete = { s with valid := true, done := true, busy := false, upc := 0 } := by
  simp [State.complete, State.endMatched, State.endErr, ho]

/-- A REWRITE completes with MATCH and ERR from the comparison (R232, R233, R258). -/
theorem complete_of_rewrite {s : State} (ho : s.op = .rewrite) :
    s.complete = { s with
      valid := true, matched := s.matches, err := if s.matches then s.err else .verificationMismatch, done := true,
      busy := false, upc := 0 } := by
  simp [State.complete, State.endMatched, State.endErr, ho]

/-- The last micro-operation of a READ completes it (R258). -/
theorem advance_of_read_end {s : State} (ho : s.op = .read) (hu : s.upc.toNat + 1 = 10) :
    s.advance = { s with valid := true, done := true, busy := false, upc := 0 } := by
  have hend : s.atEnd = true := by rw [State.atEnd, hu, ho]; rfl
  rw [State.advance, if_pos hend, complete_of_read ho]

/-- The last micro-operation of a REWRITE completes it (R258). -/
theorem advance_of_rewrite_end {s : State} (ho : s.op = .rewrite) (hu : s.upc.toNat + 1 = 158) :
    s.advance = { s with
      valid := true, matched := s.matches, err := if s.matches then s.err else .verificationMismatch, done := true,
      busy := false, upc := 0 } := by
  have hend : s.atEnd = true := by rw [State.atEnd, hu, ho]; rfl
  rw [State.advance, if_pos hend, complete_of_rewrite ho]

/-- Settles O15: short of the program's end `UPC` moves on, at its end the command completes (`complete_of_read`,
`complete_of_rewrite`), a REWRITE by what the comparison finds (`State.matches_iff`). -/
theorem advanceMovesOnOrCompletes : Obligations.AdvanceMovesOnOrCompletes := by
  refine ⟨fun s h => ?_, fun s ho h => ?_, fun s ho h hm => ?_, fun s ho h hm => ?_⟩
  · obtain ⟨-, ha⟩ | ⟨hend, -⟩ := advance_cases s
    · exact ha
    · exact absurd (hend.trans (progLen_eq s.op)) h
  · exact advance_of_read_end ho h
  · have hmatches : s.matches = true := s.matches_iff.mpr hm
    simp only [advance_of_rewrite_end ho h, hmatches, if_true]
  · have hmatches : s.matches = false := by
      rw [Bool.eq_false_iff, Ne, State.matches_iff]
      exact not_forall.mpr hm
    simp only [advance_of_rewrite_end ho h, hmatches, Bool.false_eq_true, if_false]

/-- Settles O39: the byte is stored (`rbyteAssemblesEightBits`), and the command completes on the comparison with it. -/
theorem lastByteDecidesMatch : Obligations.LastByteDecidesMatch := by
  intro s bits l ho hu hbits hl
  obtain ⟨v, hv, hexec, -⟩ := rbyteAssemblesEightBits s 7 bits l hbits hl
  have hend : s.upc.toNat + 1 = 158 := by rw [hu]; rfl
  exact ⟨v, _, hexec.trans (congrArg Host.Outcome.next (advance_of_rewrite_end ho hend)), hv, State.matches_iff _,
    fun hm => if_pos hm, fun hm => if_neg (ne_true_of_eq_false hm), rfl⟩

end Sys2Proof.Machine
end

section
/-! ### No presence at a RESET of a running command (R239, R271) -/

namespace Sys2Proof.Machine

/-- The six RESETs of the two programs, with the steps they stand in (R33, R203, R217). -/
theorem reset_places : ∀ x ∈ [(Op.read, 0#8, StepCode.readRom), (.rewrite, 0#8, .readOld),
      (.rewrite, 10#8, .enterWriteMode), (.rewrite, 14#8, .resync), (.rewrite, 144#8, .exitWriteSetup),
      (.rewrite, 148#8, .verifyNew)],
    (progWords x.1)[x.2.1.toNat]?.bind (fun w => (decodeUop w).toOption) = some .reset ∧
      runningStep x.1 x.2.1 = x.2.2 := by
  decide +kernel

theorem runSteps_succ {s u : State} (h : step s = .next u) (n : Nat) : runSteps (n + 1) s = runSteps n u := by
  simp only [runSteps, h]

/-- Settles O49: the RESET aborts the command in its first step (`resetFollowsItsAnswer`), after which the core rests;
the flags an abort leaves alone are those of a running command. -/
theorem noPresenceEndsTheCommand : Obligations.NoPresenceEndsTheCommand := by
  rintro s f ⟨hlegal, -, hslot⟩ hb hpins hanswer hplace n
  obtain ⟨hinstr, hf⟩ := reset_places _ hplace
  have hrunning := hlegal.running hb
  obtain ⟨-, hnone, -⟩ := resetFollowsItsAnswer
  have hstep := (step_of_busy_quiet hpins hslot hb hinstr).trans (hnone s hanswer)
  refine ⟨_, (runSteps_succ hstep n).trans (runSteps_of_idle_quiet ?_ ?_ ?_ n), rfl,
    (stepCode_of_busy hb).trans hf, rfl, fun hu => ?_, hrunning.valid, hrunning.matched, rfl, rfl, rfl, rfl⟩
  · exact hpins
  · exact hslot
  · rfl
  · rw [Bool.eq_false_iff, Ne, State.abort_oldvalid]
    exact mt hrunning.oldvalid_iff.mp (by simp [hu])

end Sys2Proof.Machine
end

section
/-! ### The answers of the reference slave to a list of micro-operations (R238, D24) -/

namespace Sys2Proof.Machine

/-- The answers `p`, then the answers `q`. -/
def Answers.append (p q : Answers) : Answers :=
  ⟨p.resets ++ q.resets, p.writes ++ q.writes, p.reads ++ q.reads, p.ticks + q.ticks⟩

theorem withAnswers_append (s : State) (p q : Answers) :
    s.withAnswers (p.append q) = (s.withAnswers q).withAnswers p := by
  simp only [State.withAnswers, Answers.append, List.append_assoc]

/-- No answers. -/
def Answers.none : Answers := ⟨[], [], [], 0⟩

/-- The slave's answers to the micro-operations `is`, one after the other, and the slave after them. -/
def Slave.answers (pat : Bytes8) (is : List Instr) (d : Slave) : Answers × Slave :=
  match is with
  | [] => (.none, d)
  | i :: is =>
    let r := Slave.answers pat is (d.answer pat i).2
    ((d.answer pat i).1.append r.1, r.2)

theorem Slave.onReads_length (n : Nat) (d : Slave) : (Slave.onReads n d).1.length = n := by
  induction n generalizing d with
  | zero => rfl
  | succ n ih => simp only [Slave.onReads, List.length_cons, ih]

/-- The end of a micro-operation reads and writes no answers (R258). -/
theorem advance_withAnswers (s : State) (q : Answers) : (s.withAnswers q).advance = s.advance.withAnswers q := by
  unfold State.advance
  rw [State.atEnd_congr (s := s.withAnswers q) (t := s) rfl rfl]
  split <;> rfl

/-- On the answers of a present slave a micro-operation completes, and leaves the answers after them as they are. -/
theorem uopFlow_answer {i : Instr} (hi : IsUop i) {d : Slave} (hd : d.present = true) (s : State) :
    ∃ t, s.SameControl t ∧
      ∀ q, uopFlow i (s.withAnswers ((d.answer s.pat i).1.append q)) = .ok (t.withAnswers q) := by
  cases hi with
  | reset =>
    have ha : d.onReset.1 = .presence := by simp [Slave.onReset, hd]
    refine ⟨{ s with pres := true, wire := s.wire ++ [.reset], trace := s.trace ++ [.reset .presence] }, by simp,
      fun q => (uopReset_presence (l := q.resets ++ s.ansReset) ?_).trans rfl⟩
    simp [State.withAnswers, Answers.append, Slave.answer, ha]
  | wbyte v =>
    exact ⟨{ s with biti := 0, wire := s.wire ++ (byteBits v).map .w, trace := s.trace ++ [.wbyte v none] }, by simp,
      fun q => uopWbyte_ok v (s.withAnswers ((d.answer s.pat (.wbyte v)).1.append q)) (q.writes ++ s.ansWrite) rfl⟩
  | wbit b =>
    exact ⟨{ s with wire := s.wire ++ [.w b], trace := s.trace ++ [.wbit b none] }, by simp,
      fun q => uopWbit_listed b (s := s.withAnswers ((d.answer s.pat (.wbit b)).1.append q))
        (l := q.writes ++ s.ansWrite) rfl⟩
  | wbitp k j =>
    exact ⟨{ s with
      wire := s.wire ++ [.w (patBit s.pat k j)], trace := s.trace ++ [.wbit (patBit s.pat k j) none] }, by simp,
      fun q => uopWbit_listed (patBit s.pat k j) (s := s.withAnswers ((d.answer s.pat (.wbitp k j)).1.append q))
        (l := q.writes ++ s.ansWrite) rfl⟩
  | rbyte f k =>
    generalize hbits : (Slave.onReads 8 d).1 = bits
    have hlen : bits.length = 8 := hbits ▸ Slave.onReads_length 8 d
    refine ⟨(State.storeByte { s with
      wire := s.wire ++ bits.map .r, biti := 0, sr := assemble bits } f k (assemble bits)).logCall
        (.rbyte (assemble bits)), by simp, fun q => (uopRbyte_ok f k bits hlen
        (s.withAnswers ((d.answer s.pat (.rbyte f k)).1.append q)) (q.reads ++ s.ansRead) ?_).trans ?_⟩
    · simp [State.withAnswers, Answers.append, Slave.answer, hbits]
    · cases f <;> rfl
  | wait10 => exact ⟨s.logCall .wait10, by simp, fun _ => rfl⟩

theorem Slave.select_present (d : Slave) (v : Byte) : (d.select v).present = d.present := by
  unfold Slave.select
  split_ifs <;> rfl

theorem Slave.onWrite_present (d : Slave) (b : Bool) : (d.onWrite b).present = d.present := by
  cases hm : d.mode <;> simp only [Slave.onWrite, hm]
  case cmd =>
    split
    · exact Slave.select_present _ _
    · rfl
  case data => split <;> rfl

theorem Slave.onWrites_present (d : Slave) (bits : List Bool) : (d.onWrites bits).present = d.present := by
  induction bits generalizing d with
  | nil => rfl
  | cons b bits ih => exact (ih (d.onWrite b)).trans (d.onWrite_present b)

theorem Slave.onRead_present (d : Slave) : d.onRead.2.present = d.present := by
  cases hm : d.mode <;> simp only [Slave.onRead, hm]
  case read => split <;> rfl

theorem Slave.onReads_present (n : Nat) (d : Slave) : (Slave.onReads n d).2.present = d.present := by
  induction n generalizing d with
  | zero => rfl
  | succ n ih => exact (ih d.onRead.2).trans d.onRead_present

/-- Nothing takes the slave off the line. -/
theorem Slave.answer_present (d : Slave) (pat : Bytes8) {i : Instr} (hi : IsUop i) :
    (d.answer pat i).2.present = d.present := by
  cases hi with
  | reset =>
    simp only [Slave.answer, Slave.onReset]
    split <;> rfl
  | wbyte v => exact d.onWrites_present _
  | wbit b => exact d.onWrite_present _
  | wbitp k j => exact d.onWrite_present _
  | rbyte f k => exact Slave.onReads_present 8 d
  | wait10 => rfl

/-- A step of a running command with the slave on the line (R120). -/
theorem closedRun_succ {d : Slave} {s : State} {i : Instr} (hb : s.busy = true) (hi : s.programInstr = some i)
    (n : Nat) : closedRun (n + 1) d s =
      closedRun n (d.answer s.pat i).2 (uopFlow i (s.withAnswers (d.answer s.pat i).1)).finish := by
  simp only [closedRun, hb, hi, (isUop_of_programInstr hi).exec_eq, if_true]

/-- A running command with a present slave on the line is the run of the micro-operations it has left, with the slave's
answers to them listed in advance. -/
theorem closedRun_eq {is : List Instr} {d : Slave} {s : State} (hd : d.present = true) (hb : s.busy = true)
    (his : (progInstrs s.op).drop s.upc.toNat = is) :
    closedRun is.length d s = ((Slave.answers s.pat is d).2,
      runSeq (is.map uopFlow) (s.withAnswers (Slave.answers s.pat is d).1)) := by
  induction is generalizing d s with
  | nil => rfl
  | cons i is ih =>
    have hi : s.programInstr = some i := by
      rw [← progInstrs_getElem?, ← List.head?_drop, his, List.head?_cons]
    have hu := isUop_of_programInstr hi
    have hlt : s.upc.toNat < progLen s.op := by
      have hlen := congrArg List.length his
      rw [List.length_drop, progInstrs_length, List.length_cons] at hlen
      omega
    have hrest : (progInstrs s.op).drop (s.upc.toNat + 1) = is := by
      rw [← List.drop_drop, his]
      rfl
    obtain ⟨t, hc, ht⟩ := uopFlow_answer hu hd s
    have hfinish : (uopFlow i (s.withAnswers (d.answer s.pat i).1)).finish = t.advance := by
      have hnone := ht .none
      rw [withAnswers_append] at hnone
      exact congrArg Flow.finish hnone
    rw [List.length_cons, closedRun_succ hb hi, hfinish, List.map_cons, Slave.answers]
    obtain ⟨hne, -⟩ | ⟨hend, -⟩ := advance_cases t
    · have hta : t.atEnd = false := by simpa [State.atEnd] using hne
      have hnext : (progInstrs t.advance.op).drop t.advance.upc.toNat = is := by
        rw [State.advance_op, State.advance_upc, hta, if_neg Bool.false_ne_true, hc.op, hc.upc, toNat_upc_add_one hlt]
        exact hrest
      rw [runSeq_ok (ht _) hta, advance_withAnswers,
        ih ((d.answer_present s.pat hu).trans hd) (by simp [hta, hc.busy, hb]) hnext, State.advance_pat, hc.pat]
    · obtain rfl : is = [] := by
        rw [← hrest, List.drop_eq_nil_iff, progInstrs_length, ← hc.op, ← hend, hc.upc]
      rw [List.map_nil, runSeq_singleton, ht, Flow.finish_ok, advance_withAnswers]
      rfl

end Sys2Proof.Machine
end

section
/-! ### The reference slave by the bits of its identifier (D24) -/

namespace Sys2Proof.Machine

/-- The bits of a register file in the order they go over the bus (R63, R64). -/
def fileBits (r : Bytes8) : List Bool := indices.flatMap fun k => byteBits r[k]

theorem fileBits_length (r : Bytes8) : (fileBits r).length = 64 := rfl

/-- Position `p` on the bus is bit `p % 8` of byte `p / 8`. -/
theorem fileBits_getElem? (r : Bytes8) (p : Fin 64) :
    (fileBits r)[p.val]? = some (r[posByte p].getLsbD (posBit p).toNat) := by
  fin_cases p <;> rfl

/-- Bit `i` of byte `k` stands at position `8k+i`. -/
theorem fileBits_byte (r : Bytes8) (k i : Fin 8) : (fileBits r)[8 * k.val + i.val]? = some (r[k].getLsbD i.val) := by
  fin_cases k <;> fin_cases i <;> rfl

/-- A file is determined by its bits at `8k+i`. -/
theorem eq_of_fileBits {r q : Bytes8}
    (h : ∀ k i : Fin 8, (fileBits q)[8 * k.val + i.val]? = some (r[k].getLsbD i.val)) : r = q := by
  ext k hk i hi
  have hbit := h ⟨k, hk⟩ ⟨i, hi⟩
  rw [fileBits_byte] at hbit
  simpa [BitVec.getLsbD_eq_getElem hi] using hbit.symm

/-- Writing bit `i` of a byte leaves the others alone (R127). -/
theorem setBit_getLsbD_ne (x : Byte) {i : BitVec 3} {j : Nat} (b : Bool) (h : j ≠ i.toNat) :
    (setBit x i b).getLsbD j = x.getLsbD j := by
  have hone : (1#8 <<< i).getLsbD j = false := by
    rw [BitVec.shiftLeft_eq', BitVec.getLsbD_shiftLeft, BitVec.getLsbD_one]
    by_cases hlt : j < i.toNat
    · simp [hlt]
    · simp [show j - i.toNat ≠ 0 by omega]
  by_cases hj : j < 8
  · cases b
    · rw [setBit, if_neg Bool.false_ne_true, BitVec.getLsbD_and, BitVec.getLsbD_not, hone]
      simp [hj]
    · rw [setBit, if_pos rfl, BitVec.getLsbD_or, hone, Bool.or_false]
  · rw [BitVec.getLsbD_of_ge _ _ (by omega), BitVec.getLsbD_of_ge _ _ (by omega)]

/-- A position is its byte and its bit. -/
theorem pos_eq {p q : Fin 64} (hk : posByte p = posByte q) (hi : (posBit p).toNat = (posBit q).toNat) : p = q := by
  simp only [posByte, Fin.mk.injEq] at hk
  simp only [posBit, BitVec.toNat_ofNat] at hi
  omega

/-- Bit `p` of a file written (R63, R64). -/
theorem fileBits_set (r : Bytes8) (p : Fin 64) (b : Bool) :
    fileBits (r.set (posByte p) (setBit r[posByte p] (posBit p) b)) = (fileBits r).set p.val b := by
  refine List.ext_getElem? fun n => ?_
  by_cases hn : n < 64
  · rw [fileBits_getElem? _ ⟨n, hn⟩, List.getElem?_set, fileBits_getElem? _ ⟨n, hn⟩]
    generalize hq : (⟨n, hn⟩ : Fin 64) = q
    obtain rfl : n = q.val := congrArg Fin.val hq
    by_cases hpq : p = q
    · subst hpq
      simp [setBit_getLsbD, fileBits_length]
    · rw [if_neg (by omega)]
      by_cases hk : posByte p = posByte q
      · have hi : (posBit q).toNat ≠ (posBit p).toNat := fun h => hpq (pos_eq hk h.symm)
        simp [hk, setBit_getLsbD_ne _ _ hi]
      · simp [Vector.getElem_set_ne, Fin.val_ne_of_ne hk]
  · rw [List.getElem?_eq_none (by rw [fileBits_length]; omega),
      List.getElem?_eq_none (by rw [List.length_set, fileBits_length]; omega)]

theorem take_set_succ {l : List Bool} {n : Nat} (h : n < l.length) (b : Bool) :
    (l.set n b).take (n + 1) = l.take n ++ [b] := by
  rw [List.take_add_one, List.take_set_of_le le_rfl, List.getElem?_set_self h]
  rfl

/-- Positions before the last are counted without a wrap. -/
theorem count_add_one {p : Fin 64} (h : p ≠ 63) : (p + 1).val = p.val + 1 := by
  omega

theorem Slave.onReads_succ (n : Nat) (d : Slave) : Slave.onReads (n + 1) d =
    (d.onRead.1 :: (Slave.onReads n d.onRead.2).1, (Slave.onReads n d.onRead.2).2) := rfl

/-- The slave sends the rest of its identifier, from the position it is at. -/
theorem Slave.onReads_fileBits {n : Nat} {d : Slave} (hm : d.mode = .read) (hn : d.count.val + (n + 1) = 64) :
    Slave.onReads (n + 1) d = ((fileBits d.rom).drop d.count.val, { d with mode := .idle, count := 63 }) := by
  induction n generalizing d with
  | zero =>
    have hc : d.count = 63 := by omega
    have hbits := fileBits_getElem? d.rom d.count
    rw [List.drop_eq_getElem?_toList_append, hbits, List.drop_eq_nil_of_le (by rw [fileBits_length]; omega)]
    simp [Slave.onReads, Slave.onRead, hm, hc]
  | succ n ih =>
    have hc : d.count ≠ 63 := by omega
    have hread : d.onRead =
        (d.rom[posByte d.count].getLsbD (posBit d.count).toNat, { d with count := d.count + 1 }) := by
      simp [Slave.onRead, hm, hc]
    have hrest := ih (d := { d with count := d.count + 1 }) hm
      (by change (d.count + 1).val + (n + 1) = 64; rw [count_add_one hc]; omega)
    rw [Slave.onReads_succ, hread, List.drop_eq_getElem?_toList_append, fileBits_getElem?, ← count_add_one hc]
    simp only [hrest]
    rfl

/-- The slave takes the rest of a command byte, bit by bit (R63). -/
theorem Slave.onWrites_command {bits : List Bool} (b : Bool) {d : Slave} (hm : d.mode = .cmd)
    (hn : d.count.val + (bits.length + 1) = 8) :
    d.onWrites (b :: bits) = Slave.select { d with shift := shiftBits d.shift (posBit d.count) (b :: bits), count := 7 }
      (shiftBits d.shift (posBit d.count) (b :: bits)) := by
  induction bits generalizing b d with
  | nil =>
    rw [List.length_nil] at hn
    have hc : d.count = 7 := by omega
    simp [Slave.onWrites, Slave.onWrite, hm, hc, shiftBits]
  | cons c bits ih =>
    rw [List.length_cons] at hn
    have hc : d.count ≠ 7 := by omega
    have hwrite : d.onWrite b = { d with shift := setBit d.shift (posBit d.count) b, count := d.count + 1 } := by
      simp [Slave.onWrite, hm, hc]
    have hcount : (d.count + 1).val = d.count.val + 1 := count_add_one (by omega)
    have hbit : posBit (d.count + 1) = posBit d.count + 1 := by
      rw [posBit, hcount, BitVec.ofNat_add]
      rfl
    have hrest : d.onWrites (b :: c :: bits) = (d.onWrite b).onWrites (c :: bits) := rfl
    have hnext := ih c (d := { d with shift := setBit d.shift (posBit d.count) b, count := d.count + 1 }) hm
      (by change (d.count + 1).val + (bits.length + 1) = 8; omega)
    simp only [hbit] at hnext
    rw [hrest, hwrite, hnext]
    rfl

/-- The slave stores the complement of the rest of the data bits, from the position it is at. -/
theorem Slave.onWrites_data {bits : List Bool} {d : Slave} (hm : d.mode = .data)
    (hn : d.count.val + bits.length = 64) :
    ∃ r, d.onWrites bits = { d with rom := r, mode := .idle, count := 63 } ∧
      fileBits r = (fileBits d.rom).take d.count.val ++ bits.map (!·) := by
  induction bits generalizing d with
  | nil =>
    rw [List.length_nil] at hn
    omega
  | cons b bits ih =>
    rw [List.length_cons] at hn
    have hset := fileBits_set d.rom d.count (!b)
    have hlen : d.count.val < (fileBits d.rom).length := by rw [fileBits_length]; omega
    by_cases hc : d.count = 63
    · obtain rfl : bits = [] := List.eq_nil_of_length_eq_zero (by omega)
      have hfull : ((fileBits d.rom).set d.count.val !b).length ≤ d.count.val + 1 := by
        rw [List.length_set, fileBits_length]
        omega
      refine ⟨_, by simp only [Slave.onWrites, List.foldl, Slave.onWrite, hm, hc, if_true], hset.trans ?_⟩
      rw [← List.take_of_length_le hfull, take_set_succ hlen]
      rfl
    · have hwrite : d.onWrite b = { d with
          rom := d.rom.set (posByte d.count) (setBit d.rom[posByte d.count] (posBit d.count) !b),
          count := d.count + 1 } := by
        simp [Slave.onWrite, hm, hc]
      obtain ⟨r, hr, hbits⟩ := ih (d := { d with
          rom := d.rom.set (posByte d.count) (setBit d.rom[posByte d.count] (posBit d.count) !b),
          count := d.count + 1 }) hm (by change (d.count + 1).val + bits.length = 64; rw [count_add_one hc]; omega)
      refine ⟨r, (congrArg (Slave.onWrites · bits) hwrite).trans hr, hbits.trans ?_⟩
      simp only [hset, count_add_one hc, take_set_succ hlen]
      rw [List.append_assoc]
      rfl

end Sys2Proof.Machine
end

section
/-! ### The answers of the reference slave to a REWRITE (R238, D24) -/

namespace Sys2Proof.Machine

/-- The answers to two lists of micro-operations are those to the first, then those to the second. -/
theorem Slave.answers_append {pat : Bytes8} {is js : List Instr} {d e f : Slave} {p q : Answers}
    (hi : Slave.answers pat is d = (p, e)) (hj : Slave.answers pat js e = (q, f)) :
    Slave.answers pat (is ++ js) d = (p.append q, f) := by
  induction is generalizing d p with
  | nil =>
    cases hi
    simp [hj, Answers.append, Answers.none]
  | cons i is ih =>
    cases hi
    simp [Slave.answers, ih rfl, Answers.append, List.append_assoc, Nat.add_assoc]

/-- A present slave answers a reset and a command byte, and knows the command. -/
theorem Slave.answers_reset_wbyte (pat : Bytes8) (v : Byte) {d : Slave} (hd : d.present = true) :
    Slave.answers pat [.reset, .wbyte v] d =
      (⟨[.presence], List.replicate 8 .ok, [], 0⟩, Slave.select { d with mode := .cmd, shift := v, count := 7 } v) := by
  have hreset : d.onReset = (.presence, { d with mode := .cmd, shift := 0, count := 0 }) := if_pos hd
  have hshift : shiftBits 0 0 (byteBits v) = v := (shiftBits_eight _ _ _ _ _ _ _ _).trans (assemble_byteBits v)
  have hcommand := Slave.onWrites_command (bits := (byteBits v).tail) (v.getLsbD 0)
    (d := { d with mode := .cmd, shift := 0, count := 0 }) rfl rfl
  have hbits : v.getLsbD 0 :: (byteBits v).tail = byteBits v := rfl
  have hbit : posBit 0 = 0 := rfl
  simp only [hbits, hbit, hshift] at hcommand
  simp only [Slave.answers, Slave.answer, hreset, hcommand]
  rfl

/-- The slots of consecutive RBYTEs are consecutive read slots (R127). -/
theorem Slave.onReads_add (m n : Nat) (d : Slave) : Slave.onReads (m + n) d =
    ((Slave.onReads m d).1 ++ (Slave.onReads n (Slave.onReads m d).2).1,
      (Slave.onReads n (Slave.onReads m d).2).2) := by
  induction m generalizing d with
  | zero => simp [Slave.onReads]
  | succ m ih => simp [Nat.succ_add, Slave.onReads_succ, ih]

theorem Slave.answers_rbytes (pat : Bytes8) (f : Dest) (ks : List (Fin 8)) (d : Slave) :
    Slave.answers pat (ks.map (.rbyte f)) d =
      (⟨[], [], (Slave.onReads (8 * ks.length) d).1.map .bit, 0⟩, (Slave.onReads (8 * ks.length) d).2) := by
  induction ks generalizing d with
  | nil => rfl
  | cons k ks ih =>
    rw [List.map_cons, Slave.answers, List.length_cons, Nat.mul_succ, Nat.add_comm, Slave.onReads_add, ih]
    simp [Answers.append, Slave.answer]

/-- ROMREAD reads out the slave's identifier (R200). -/
theorem Slave.answers_romread (pat : Bytes8) (f : Dest) {d : Slave} (hd : d.present = true) :
    Slave.answers pat (.reset :: .wbyte 0x33 :: indices.map (.rbyte f)) d =
      (⟨[.presence], List.replicate 8 .ok, (fileBits d.rom).map .bit, 0⟩,
        { d with mode := .idle, shift := 0x33, count := 63 }) := by
  have hselect : Slave.select { d with mode := .cmd, shift := 0x33, count := 7 } 0x33 =
      { d with mode := .read, shift := 0x33, count := 0 } := rfl
  have hcommand := Slave.answers_reset_wbyte pat 0x33 hd
  have hbytes := Slave.answers_rbytes pat f indices { d with mode := .read, shift := 0x33, count := 0 }
  have hread := Slave.onReads_fileBits (n := 63) (d := { d with mode := .read, shift := 0x33, count := 0 }) rfl rfl
  have hlen : 8 * indices.length = 63 + 1 := rfl
  rw [hselect] at hcommand
  rw [hlen, hread] at hbytes
  exact Slave.answers_append hcommand hbytes

/-- The control frames arm a writable slave with the bit 0, and disarm it with the bit 1 (R102). -/
theorem Slave.answers_control (pat : Bytes8) (arm : Bool) {d : Slave} (hd : d.present = true) (hw : d.writable = true) :
    Slave.answers pat [.reset, .wbyte 0xD1, .wbit arm, .wait10] d =
      (⟨[.presence], List.replicate 9 .ok, [], 0⟩,
        { d with armed := !arm, mode := .idle, shift := 0xD1, count := 7 }) := by
  have harm : Slave.answers pat [.wbit arm, .wait10] { d with mode := .ctrl, shift := 0xD1, count := 7 } =
      (⟨[], [.ok], [], 0⟩, { d with armed := !arm, mode := .idle, shift := 0xD1, count := 7 }) := by
    simp only [Slave.answers, Slave.answer, Slave.onWrite, hw, if_true]
    rfl
  exact Slave.answers_append (Slave.answers_reset_wbyte pat 0xD1 hd) harm

/-- The single-bit writes of state 6, each with its wait (R191). -/
theorem Slave.answers_patternSlots (pat : Bytes8) (ps : List (Fin 8 × Fin 8)) (d : Slave) :
    Slave.answers pat (ps.flatMap fun p => [.wbitp p.1 p.2, .wait10]) d =
      (⟨[], List.replicate ps.length .ok, [], 0⟩, d.onWrites (ps.map fun p => patBit pat p.1 p.2)) := by
  induction ps generalizing d with
  | nil => rfl
  | cons p ps ih =>
    exact Slave.answers_append (is := [.wbitp p.1 p.2, .wait10]) rfl (ih (d.onWrite (patBit pat p.1 p.2)))

/-- An armed slave takes the complement of the patterns for its identifier (R103, R104). -/
theorem Slave.answers_data (pat : Bytes8) {d : Slave} (hd : d.present = true) (hw : d.writable = true)
    (ha : d.armed = true) :
    ∃ r, fileBits r = (fileBits pat).map (!·) ∧
      Slave.answers pat (.reset :: .wbyte 0xD5 :: patternOrder.flatMap fun p => [.wbitp p.1 p.2, .wait10]) d =
        (⟨[.presence], List.replicate 72 .ok, [], 0⟩,
          { d with rom := r, mode := .idle, shift := 0xD5, count := 63 }) := by
  have hselect : Slave.select { d with mode := .cmd, shift := 0xD5, count := 7 } 0xD5 =
      { d with mode := .data, shift := 0xD5, count := 0 } := by
    simp [Slave.select, hw, ha]
  have hcommand := Slave.answers_reset_wbyte pat 0xD5 hd
  have hslots := Slave.answers_patternSlots pat patternOrder { d with mode := .data, shift := 0xD5, count := 0 }
  obtain ⟨r, hr, hbits⟩ := Slave.onWrites_data (bits := fileBits pat)
    (d := { d with mode := .data, shift := 0xD5, count := 0 }) rfl rfl
  have horder : (patternOrder.map fun p => patBit pat p.1 p.2) = fileBits pat := rfl
  rw [hselect] at hcommand
  rw [horder, hr] at hslots
  exact ⟨r, hbits, Slave.answers_append hcommand hslots⟩

/-- The frames of the REWRITE program (R217). -/
theorem progInstrs_rewrite_frames : progInstrs .rewrite =
    (Instr.reset :: Instr.wbyte 0x33 :: indices.map (Instr.rbyte .oldcode)) ++
    ([Instr.reset, Instr.wbyte 0xD1, Instr.wbit false, Instr.wait10] ++
    ((Instr.reset :: Instr.wbyte 0xD5 :: patternOrder.flatMap fun p => [Instr.wbitp p.1 p.2, Instr.wait10]) ++
    ([Instr.reset, Instr.wbyte 0xD1, Instr.wbit true, Instr.wait10] ++
    (Instr.reset :: Instr.wbyte 0x33 :: indices.map (Instr.rbyte .romcode))))) := by
  rw [progInstrs_rewrite]
  rfl

/-- The answers of a present, writable slave to a REWRITE of the patterns `pat`: it sends its old identifier, then the
new one, which is the complement of the patterns (R104, R217). -/
theorem Slave.answers_rewrite (pat : Bytes8) {d : Slave} (hd : d.present = true) (hw : d.writable = true) :
    ∃ e : Slave, fileBits e.rom = (fileBits pat).map (!·) ∧ e.armed = false ∧
      Slave.answers pat (progInstrs .rewrite) d = (⟨List.replicate 5 .presence, List.replicate 106 .ok,
        (fileBits d.rom ++ fileBits e.rom).map .bit, 0⟩, e) := by
  have hold := Slave.answers_romread pat .oldcode hd
  have harm := Slave.answers_control pat false (d := { d with mode := .idle, shift := 0x33, count := 63 }) hd hw
  obtain ⟨r, hr, hdata⟩ := Slave.answers_data pat
    (d := { d with armed := true, mode := .idle, shift := 0xD1, count := 7 }) hd hw rfl
  have hdisarm := Slave.answers_control pat true
    (d := { d with rom := r, armed := true, mode := .idle, shift := 0xD5, count := 63 }) hd hw
  have hnew := Slave.answers_romread pat .romcode
    (d := { d with rom := r, armed := false, mode := .idle, shift := 0xD1, count := 7 }) hd
  have hall := Slave.answers_append hold (Slave.answers_append harm (Slave.answers_append hdata
    (Slave.answers_append hdisarm hnew)))
  refine ⟨{ d with rom := r, armed := false, mode := .idle, shift := 0x33, count := 63 }, hr, rfl, ?_⟩
  rw [progInstrs_rewrite_frames, hall]
  simp [Answers.append]

/-- A file whose bits are the complement of another's holds the complements of its bytes (R104). -/
theorem fileBits_complement {r q : Bytes8} (h : fileBits r = (fileBits q).map (!·)) (k : Fin 8) : r[k] = ~~~q[k] := by
  ext i hi
  have hbit := fileBits_byte r k ⟨i, hi⟩
  rw [h, List.getElem?_map, fileBits_byte, Option.map_some, Option.some.injEq] at hbit
  simpa [BitVec.getLsbD_eq_getElem hi] using hbit.symm

/-- A running command stays legal with the slave on the line (R30, R36 to R39). -/
theorem closedRun_legal (n : Nat) (d : Slave) {s : State} (hs : s.Legal) : (closedRun n d s).2.Legal := by
  induction n generalizing d s with
  | zero => exact hs
  | succ n ih =>
    cases hb : s.busy with
    | false => simpa [closedRun, hb] using hs
    | true =>
      have hrunning := hs.running hb
      obtain ⟨i, hi⟩ := programInstr_legal hrunning.upc_lt
      have hanswered : (s.withAnswers (d.answer s.pat i).1).Running :=
        hrunning.of_sameControl (by simp [State.withAnswers]) rfl
      have hu := isUop_of_programInstr hi
      rw [closedRun_succ hb hi]
      exact ih _ ((exec_uop_outcome hu (hu.exec_eq _)).legal hanswered hi)

/-- A REWRITE that runs from its first micro-operation against a present, writable slave completes, and leaves the
slave disarmed with the complement of the patterns (R104, R238). -/
theorem closedRun_rewrite {d : Slave} {s : State} (hd : d.present = true) (hw : d.writable = true)
    (hb : s.busy = true) (hop : s.op = .rewrite) (hupc : s.upc = 0) :
    ∃ e t, closedRun 158 d s = (e, t) ∧ fileBits e.rom = (fileBits s.pat).map (!·) ∧ e.armed = false ∧
      t.Rewritten s.pat (fileBits d.rom) (fileBits e.rom) := by
  obtain ⟨e, hrom, harmed, hanswers⟩ := Slave.answers_rewrite s.pat hd hw
  have hrun := closedRun_eq (is := progInstrs .rewrite) hd hb (by rw [hop, hupc]; rfl)
  have hlen : progLen .rewrite = 158 := rfl
  rw [progInstrs_length, hlen, hanswers] at hrun
  exact ⟨e, _, hrun, hrom, harmed,
    runSeq_rewrite (s := s.withAnswers _) hop hupc (fileBits_length d.rom) (fileBits_length e.rom) rfl rfl rfl⟩

/-- Settles O48: the REWRITE completes (`closedRun_rewrite`) with the bits of the slave's old and new identifier read,
so it compares equal, and its flags are those of a legal state (`closedRun_legal`). -/
theorem rewriteOnReferenceSlaveMatches : Obligations.RewriteOnReferenceSlaveMatches := by
  intro s d p hb hd hw
  have haccept : exec (.rewrite p) s = .next ((s.accept .rewrite).latchPat p) := by simp [exec, execRewrite, hb]
  have hlegal := closedRun_legal 158 d (accept_latchPat_running s .rewrite p).legal
  obtain ⟨e, t, hrun, hrom, harmed, holdbits, hnewbits, hpat, hop, hbusy, hvalid⟩ :=
    closedRun_rewrite (s := (s.accept .rewrite).latchPat p) hd hw rfl rfl rfl
  refine ⟨_, haccept, ?_⟩
  rw [hrun] at hlegal ⊢
  have hnew : t.romcode = e.rom := eq_of_fileBits hnewbits
  have hcompl : ∀ k : Fin 8, t.romcode[k] = ~~~(unpackPort p)[k] := by
    rw [hnew]
    exact fileBits_complement hrom
  have hmatched : t.matched = true := by
    obtain ⟨-, -, -, hmatches, -⟩ := hlegal.rewrite_flags hvalid hop
    rw [hmatches, State.matches_iff, hpat]
    exact hcompl
  exact ⟨fun k => (hcompl k).trans (congrArg _ (unpackPort_getElem p k)), eq_of_fileBits holdbits, hnew.symm, harmed,
    hmatched, (hlegal.status_of_rewrite hbusy hvalid hop).trans (if_pos hmatched)⟩

end Sys2Proof.Machine
end

section
/-! ### Two cores in the same place of the same command (R259) -/

namespace Sys2Proof.Machine

/-- What is left of a state without the registers an earlier command may have left in it (the patterns, the two files
and the two hidden samples `SR` and `PRES`) and without its histories. -/
def State.forget (s : State) : State :=
  { s with
    pat := State.reset.pat, romcode := State.reset.romcode, oldcode := State.reset.oldcode, sr := 0, pres := false,
    trace := [], wire := [] }

/-- Two cores, once in the states `s` and `u`, on their way through the same command with the micro-operations `done`
behind them: they agree but for what `s` and `u` left in them, and a code register one of `done` reads is the same. -/
structure State.Alike (s u : State) (o : Op) (done : List Instr) (t v : State) : Prop where
  same : t.forget = v.forget
  trace : ∃ tr, t.trace = s.trace ++ tr ∧ v.trace = u.trace ++ tr
  wire : ∃ wr, t.wire = s.wire ++ wr ∧ v.wire = u.wire ++ wr
  op : t.op = o
  pat : (o = .rewrite → t.pat = v.pat) ∧ (o = .read → t.pat = s.pat ∧ v.pat = u.pat)
  file : ∀ (d : Dest) (k : Fin 8), (t.file d)[k] = (v.file d)[k] ∨
    (.rbyte d k ∉ done ∧ (t.file d)[k] = (s.file d)[k] ∧ (v.file d)[k] = (u.file d)[k])

/-- Two transport operations that end alike: both complete, in states related by `R`, or both raise the same error, in
states related by `Q`. -/
inductive Flow.Alike (R Q : State → State → Prop) : Flow → Flow → Prop
  | ok {t v : State} (h : R t v) : Flow.Alike R Q (.ok t) (.ok v)
  | raised {e : ErrCode} {t v : State} (he : e.Aborts) (h : Q t v) : Flow.Alike R Q (.raised e t) (.raised e v)

theorem storeByte_file_ne {s : State} {d e : Dest} {k j : Fin 8} {v : Byte} (h : Instr.rbyte d k ≠ .rbyte e j) :
    ((s.storeByte d k v).file e)[j] = (s.file e)[j] := by
  cases e with
  | romcode => exact storeByte_romcode_ne fun hd hk => h (by rw [hd, hk])
  | oldcode => exact storeByte_oldcode_ne fun hd hk => h (by rw [hd, hk])

section
variable {s u t v : State} {o : Op} {done : List Instr}

theorem State.Alike.biti_eq (h : s.Alike u o done t v) : t.biti = v.biti := congrArg (·.biti) h.same

theorem State.Alike.op_right (h : s.Alike u o done t v) : v.op = o := (congrArg (·.op) h.same).symm.trans h.op

theorem State.Alike.logCall (h : s.Alike u o done t v) (e : Event) :
    s.Alike u o done (t.logCall e) (v.logCall e) := by
  obtain ⟨tr, ht, hv⟩ := h.trace
  exact { h with
    same := h.same
    trace := ⟨tr ++ [e], by simp [ht], by simp [hv]⟩ }

theorem State.Alike.logWire (h : s.Alike u o done t v) (e : WireEvent) :
    s.Alike u o done (t.logWire e) (v.logWire e) := by
  obtain ⟨wr, ht, hv⟩ := h.wire
  exact { h with
    same := h.same
    wire := ⟨wr ++ [e], by simp [ht], by simp [hv]⟩ }

/-- The byte an RBYTE stores is the same in both cores from then on (R127). -/
theorem State.Alike.storeByte (h : s.Alike u o done t v) (d : Dest) (k : Fin 8) (x : Byte) :
    s.Alike u o (done ++ [.rbyte d k]) (t.storeByte d k x) (v.storeByte d k x) := by
  refine ⟨?_, ?_, ?_, ?_, ?_, fun e j => ?_⟩
  · have := congrArg (fun y => (y.storeByte d k x).forget) h.same
    cases d <;> exact this
  · simpa using h.trace
  · simpa using h.wire
  · simpa using h.op
  · simpa using h.pat
  · by_cases hne : Instr.rbyte d k = .rbyte e j
    · cases hne
      exact .inl (by simp)
    · simp only [storeByte_file_ne hne]
      exact (h.file e j).imp_right fun ⟨hmem, hkept⟩ => ⟨by simpa [hmem] using Ne.symm hne, hkept⟩

/-- A micro-operation that is no RBYTE reads no code register. -/
theorem State.Alike.append (h : s.Alike u o done t v) {i : Instr} (hi : ∀ d k, i ≠ .rbyte d k) :
    s.Alike u o (done ++ [i]) t v :=
  { h with
    file := fun d k => (h.file d k).imp_right fun ⟨hmem, hkept⟩ =>
      ⟨by simpa [hmem] using (hi d k).symm, hkept⟩ }

theorem Flow.Alike.append {f g : Flow} (h : Flow.Alike (s.Alike u o done) (s.Alike u o done) f g) {i : Instr}
    (hi : ∀ d k, i ≠ .rbyte d k) : Flow.Alike (s.Alike u o (done ++ [i])) (s.Alike u o done) f g := by
  cases h with
  | ok h => exact .ok (h.append hi)
  | raised he h => exact .raised he h

/-- Write slots go alike (R122). -/
theorem State.Alike.wslots (h : s.Alike u o done t v) (bits : List Bool) :
    Flow.Alike (s.Alike u o done) (s.Alike u o done) (wslots bits t) (wslots bits v) := by
  induction bits generalizing t v with
  | nil => exact .ok h
  | cons b bits ih =>
    have hanswer : t.writeAnswer b = v.writeAnswer b := congrArg (·.writeAnswer b) h.same
    have hdrop : s.Alike u o done t.dropWrite v.dropWrite := { h with same := congrArg State.dropWrite h.same }
    simp only [Machine.wslots, wslot, hanswer]
    cases v.writeAnswer b with
    | ok =>
      have hw := hdrop.logWire (.w b)
      exact ih { hw with same := congrArg State.nextBit hw.same }
    | fault => exact .raised (.inr rfl) hdrop

/-- Read slots go alike, and leave the same byte in `SR` (R124, R170). -/
theorem State.Alike.rslots (h : s.Alike u o done t v) (hsr : t.sr = v.sr) (n : Nat) :
    Flow.Alike (fun t v => s.Alike u o done t v ∧ t.sr = v.sr) (s.Alike u o done) (rslots n t) (rslots n v) := by
  induction n generalizing t v with
  | zero => exact .ok ⟨h, hsr⟩
  | succ n ih =>
    have hanswer : t.readAnswer = v.readAnswer := congrArg (·.readAnswer) h.same
    have hdrop : s.Alike u o done t.dropRead v.dropRead := { h with same := congrArg State.dropRead h.same }
    simp only [Machine.rslots, rslot, hanswer]
    cases v.readAnswer with
    | bit b =>
      have hr := hdrop.logWire (.r b)
      exact ih { hr with same := congrArg State.nextBit hr.same }
        (by simp [State.nextBit, State.shiftIn, State.logWire, State.dropRead, hsr, h.biti_eq])
    | fault => exact .raised (.inr rfl) hdrop

/-- A single-bit write goes alike, common to WBIT and WBITP (R123, R129). -/
theorem State.Alike.uopWbit (h : s.Alike u o done t v) (b : Bool) :
    Flow.Alike (s.Alike u o done) (s.Alike u o done) (uopWbit b t) (uopWbit b v) := by
  have hanswer : t.writeAnswer b = v.writeAnswer b := congrArg (·.writeAnswer b) h.same
  have hdrop : s.Alike u o done t.dropWrite v.dropWrite := { h with same := congrArg State.dropWrite h.same }
  simp only [Machine.uopWbit, wslot, hanswer]
  cases v.writeAnswer b with
  | ok => exact .ok ((hdrop.logWire _).logCall _)
  | fault => exact .raised (.inr rfl) (hdrop.logCall _)

/-- A RESET goes alike (R121). -/
theorem State.Alike.uopReset (h : s.Alike u o done t v) :
    Flow.Alike (s.Alike u o done) (s.Alike u o done) (uopReset t) (uopReset v) := by
  have hanswer : t.resetAnswer = v.resetAnswer := congrArg (·.resetAnswer) h.same
  have hdrop : s.Alike u o done t.dropReset v.dropReset := { h with same := congrArg State.dropReset h.same }
  have hpres (b : Bool) : s.Alike u o done { t.dropReset with pres := b } { v.dropReset with pres := b } :=
    { hdrop with same := hdrop.same }
  simp only [Machine.uopReset, hanswer]
  cases v.resetAnswer with
  | presence => exact .ok (((hpres true).logWire _).logCall _)
  | noPresence => exact .raised (.inl rfl) (((hpres false).logWire _).logCall _)
  | fault => exact .raised (.inr rfl) (hdrop.logCall _)

/-- A WBYTE goes alike (R125, R126). -/
theorem State.Alike.uopWbyte (h : s.Alike u o done t v) (x : Byte) :
    Flow.Alike (s.Alike u o done) (s.Alike u o done) (uopWbyte x t) (uopWbyte x v) := by
  have hstart : s.Alike u o done { t with biti := 0 } { v with biti := 0 } :=
    { h with same := congrArg (fun y => { y with biti := 0 }) h.same }
  have hslots : Flow.Alike (s.Alike u o done) (s.Alike u o done) (writeByte x t) (writeByte x v) :=
    hstart.wslots (byteBits x)
  unfold Machine.uopWbyte
  generalize writeByte x t = f, writeByte x v = g at hslots
  cases hslots with
  | ok h => exact .ok (h.logCall _)
  | raised he h =>
    simp only [h.biti_eq]
    exact .raised he (h.logCall _)

/-- An RBYTE goes alike, and reads its code register in both cores if it completes (R127). -/
theorem State.Alike.uopRbyte (h : s.Alike u o done t v) (d : Dest) (k : Fin 8) :
    Flow.Alike (s.Alike u o (done ++ [.rbyte d k])) (s.Alike u o done) (uopRbyte d k t) (uopRbyte d k v) := by
  have hstart : s.Alike u o done { t with biti := 0, sr := 0 } { v with biti := 0, sr := 0 } :=
    { h with same := congrArg (fun y => { y with biti := 0 }) h.same }
  have hslots : Flow.Alike (fun t v => s.Alike u o done t v ∧ t.sr = v.sr) (s.Alike u o done)
      (readByte t) (readByte v) := hstart.rslots rfl 8
  unfold Machine.uopRbyte
  generalize readByte t = f, readByte v = g at hslots
  cases hslots with
  | ok h =>
    obtain ⟨h, hsr⟩ := h
    simp only [hsr]
    exact .ok ((h.storeByte d k _).logCall _)
  | raised he h =>
    simp only [h.biti_eq]
    exact .raised he (h.logCall _)

/-- A micro-operation goes alike; a WBITP sends the same bit, being one of a REWRITE, whose patterns are the command's
own (R129, R256). -/
theorem State.Alike.uopFlow (h : s.Alike u o done t v) {i : Instr} (hi : IsUop i)
    (hpat : ∀ k j, i = .wbitp k j → o = .rewrite) :
    Flow.Alike (s.Alike u o (done ++ [i])) (s.Alike u o done) (uopFlow i t) (uopFlow i v) := by
  cases hi with
  | reset => exact h.uopReset.append nofun
  | wbyte x => exact (h.uopWbyte x).append nofun
  | wbit b => exact (h.uopWbit b).append nofun
  | wbitp k j =>
    have hbit : patBit v.pat k j = patBit t.pat k j := by rw [h.pat.1 (hpat k j rfl)]
    simp only [Machine.uopFlow, uopWbitp, hbit]
    exact (h.uopWbit _).append nofun
  | rbyte d k => exact h.uopRbyte d k
  | wait10 => exact .ok ((h.logCall .wait10).append nofun)

/-- An abort records the same step and error (R280). -/
theorem State.Alike.abort (h : s.Alike u o done t v) (e : ErrCode) : s.Alike u o done (t.abort e) (v.abort e) :=
  { h with same := congrArg (·.abort e) h.same }

/-- MATCH and ERR at the end of a command are the same, once it has read every byte of ROMCODE: the patterns they are
compared with are the command's own, and a READ compares nothing (R232, R258). -/
theorem State.Alike.end_eq (h : s.Alike u o done t v) (hrom : t.romcode = v.romcode) :
    t.endMatched = v.endMatched ∧ t.endErr = v.endErr := by
  have hmatched : t.matched = v.matched := congrArg (·.matched) h.same
  have herr : t.err = v.err := congrArg (·.err) h.same
  unfold State.endMatched State.endErr
  rw [h.op, h.op_right]
  cases ho : o with
  | read => exact ⟨hmatched, herr⟩
  | rewrite =>
    have hmatches : t.matches = v.matches := State.matches_congr (h.pat.1 ho) hrom
    simp only [hmatches, herr, and_self]

/-- A file every register of which `done` has read is the same. -/
theorem State.Alike.file_eq (h : s.Alike u o done t v) {d : Dest} (hd : ∀ k, .rbyte d k ∈ done) :
    t.file d = v.file d := by
  ext1 k hk
  exact (h.file d ⟨k, hk⟩).resolve_right fun hkept => hkept.1 (hd _)

/-- Micro-operations end alike (R120, R258). -/
theorem State.Alike.advance (h : s.Alike u o done t v)
    (hrom : t.advance.valid = true → ∀ k, .rbyte .romcode k ∈ done) : s.Alike u o done t.advance v.advance := by
  have hend : t.atEnd = v.atEnd := congrArg (·.atEnd) h.same
  cases he : t.atEnd with
  | false =>
    rw [State.advance_of_not_atEnd he, State.advance_of_not_atEnd (hend ▸ he)]
    exact { h with same := congrArg (fun y => { y with upc := y.upc + 1 }) h.same }
  | true =>
    obtain ⟨hmatched, herr⟩ := h.end_eq (h.file_eq (d := .romcode) (hrom (by simp [he])))
    simp only [State.advance, ← hend, he, if_true, State.complete, hmatched, herr]
    exact { h with same := congrArg (fun y => { y with
      valid := true, matched := v.endMatched, err := v.endErr, done := true, busy := false, upc := 0 }) h.same }

/-- Two transport operations that end alike have ended the micro-operation, or aborted the command, alike. -/
theorem Flow.Alike.finish {i : Instr} {f g : Flow} (h : Flow.Alike (s.Alike u o (done ++ [i])) (s.Alike u o done) f g)
    (hrom : f.finish.valid = true → ∀ k, .rbyte .romcode k ∈ done ++ [i]) :
    s.Alike u o (done ++ [i]) f.finish g.finish ∨ (f.finish.err.Aborts ∧ s.Alike u o done f.finish g.finish) := by
  cases h with
  | ok h => exact .inl (h.advance hrom)
  | raised he h => exact .inr ⟨he, h.abort _⟩

end

end Sys2Proof.Machine
end

section
/-! ### What an earlier command left does not matter (R259) -/

namespace Sys2Proof.Machine

/-- Both programs read every byte of ROMCODE (R203, R217). -/
theorem rbyte_romcode_mem (o : Op) (k : Fin 8) : .rbyte .romcode k ∈ progInstrs o := by
  cases o <;> simp [progInstrs_read, progInstrs_rewrite, mem_indices]

/-- The first ten micro-operations of a REWRITE read every byte of OLDCODE (R217). -/
theorem rbyte_oldcode_mem (k : Fin 8) : .rbyte .oldcode k ∈ (progInstrs .rewrite).take 10 := by
  rw [progInstrs_rewrite, List.take_left' (by rfl)]
  simp [mem_indices]

/-- A WBITP is a micro-operation of a REWRITE (R203). -/
theorem op_of_wbitp {s : State} {k j : Fin 8} (hi : s.programInstr = some (.wbitp k j)) : s.op = .rewrite := by
  cases ho : s.op with
  | rewrite => rfl
  | read =>
    rw [← progInstrs_getElem?, ho, progInstrs_read] at hi
    simpa using List.mem_of_getElem? hi

/-- The micro-operations behind a core once it has done the one `UPC` points at. -/
theorem take_upc_succ {s : State} {i : Instr} (hi : s.programInstr = some i) :
    (progInstrs s.op).take (s.upc.toNat + 1) = (progInstrs s.op).take s.upc.toNat ++ [i] := by
  rw [List.take_add_one, progInstrs_getElem?, hi]
  rfl

/-- VALID vouches for ROMCODE and OLDVALID for OLDCODE (R37): a micro-operation that leaves VALID set is the last of its
program, one that sets OLDVALID is the tenth of a REWRITE, and an abort sets neither. -/
theorem State.UopOutcome.vouches {i : Instr} {s t : State} (h : s.UopOutcome i t) (hs : s.Running)
    (hi : s.programInstr = some i) :
    (t.valid = true → ∀ k, .rbyte .romcode k ∈ (progInstrs s.op).take (s.upc.toNat + 1)) ∧
    (t.oldvalid = true →
      s.oldvalid = true ∨ ∀ k, .rbyte .oldcode k ∈ (progInstrs s.op).take (s.upc.toNat + 1)) ∧
    (t.err.Aborts → t.oldvalid = s.oldvalid) := by
  cases h with
  | completed w frame hold _ =>
    have hc := frame.control
    refine ⟨fun hv k => ?_, fun ho => ?_, fun he => absurd he (advance_err_not_aborts (hc.err.trans hs.err))⟩
    · have hend : s.upc.toNat + 1 = progLen s.op := by
        simpa [hc.valid, hs.valid, State.atEnd, hc.upc, hc.op] using hv
      rw [hend, ← progInstrs_length, List.take_length]
      exact rbyte_romcode_mem s.op k
    · rw [State.advance_oldvalid, hold, Bool.or_eq_true, decide_eq_true_iff] at ho
      refine ho.imp_right fun h7 k => ?_
      obtain ⟨hop, hupc⟩ := (programInstr_oldcode7 hs.upc_lt hi).mp h7
      rw [hop, hupc]
      exact rbyte_oldcode_mem k
  | raised w e frame hold _ =>
    have hv : w.valid = false := frame.control.valid.trans hs.valid
    exact ⟨by simp [hv], fun ho => .inl (hold.symm.trans ho), fun _ => hold⟩

/-- Two cores left alone on the same command since they were `s` and `u`, with the micro-operations `done` behind them;
`done` holds the reads for which the valid flags vouch. -/
structure State.OnSameCommand (s u : State) (o : Op) (done : List Instr) (t v : State) : Prop where
  alike : s.Alike u o done t v
  inv : t.Inv
  quiet : t.pins = []
  done_eq : t.busy = true → done = (progInstrs t.op).take t.upc.toNat
  romcode : t.valid = true → ∀ k, .rbyte .romcode k ∈ done
  oldcode : t.oldvalid = true → ∀ k, .rbyte .oldcode k ∈ done

/-- Two running cores on the same command do the micro-operation at `UPC` alike. -/
theorem State.OnSameCommand.uopFlow {s u t v : State} {o : Op} {done : List Instr} {i : Instr}
    (h : s.OnSameCommand u o done t v) (hb : t.busy = true) (hi : t.programInstr = some i)
    (hstep : step t = .next (uopFlow i t).finish) :
    ∃ done', s.OnSameCommand u o done' (uopFlow i t).finish (uopFlow i v).finish := by
  obtain ⟨halike, hinv, hquiet, hdone, hrom, hold⟩ := h
  have ⟨hlegal, _⟩ := hinv
  have hrun := hlegal.running hb
  have hu := isUop_of_programInstr hi
  have out := exec_uop_outcome hu (hu.exec_eq t)
  obtain ⟨-, -, hpins⟩ := out.command_eq
  obtain ⟨hrom', hold', habort⟩ := out.vouches hrun hi
  have hnext : (progInstrs t.op).take (t.upc.toNat + 1) = done ++ [i] := by rw [take_upc_succ hi, hdone hb]
  rw [hnext] at hrom' hold'
  have hinv' := stepKeepsTheInvariant _ _ hinv hstep
  have ⟨hlegal', _⟩ := hinv'
  have hflow := halike.uopFlow hu fun k j hkj => halike.op.symm.trans (op_of_wbitp (hkj ▸ hi))
  obtain ha | ⟨he, ha⟩ := hflow.finish hrom'
  · refine ⟨done ++ [i], ha, hinv', hpins.trans hquiet, fun hb' => ?_, hrom', fun ho k => ?_⟩
    · obtain ⟨hop, hupc⟩ := step_still_busy hinv hb hstep hb'
      rw [hop, hupc, hnext]
    · exact (hold' ho).elim (fun ho => List.mem_append_left _ (hold ho k)) (· k)
  · have hvalid := hlegal'.valid_of_aborts he
    refine ⟨done, ha, hinv', hpins.trans hquiet, fun hb' => ?_, by simp [hvalid], fun ho => hold (habort he ▸ ho)⟩
    have herr := (hlegal'.running hb').err
    simp [herr, ErrCode.Aborts] at he

/-- Two cores on the same command take the next step alike, or rest alike once it has ended. -/
theorem State.OnSameCommand.step_next {s u t v : State} {o : Op} {done : List Instr}
    (h : s.OnSameCommand u o done t v) :
    ∃ t' v', step t = .next t' ∧ step v = .next v' ∧ ∃ done', s.OnSameCommand u o done' t' v' := by
  have ⟨halike, ⟨hlegal, _, hslot⟩, hquiet, _, _, _⟩ := h
  have hvquiet : v.pins = [] := (congrArg (·.pins) halike.same).symm.trans hquiet
  have hvslot : v.slot = none := (congrArg (·.slot) halike.same).symm.trans hslot
  have hvbusy : v.busy = t.busy := (congrArg (·.busy) halike.same).symm
  cases hb : t.busy with
  | false =>
    exact ⟨t, v, step_of_idle_quiet hquiet hslot hb, step_of_idle_quiet hvquiet hvslot (hvbusy.trans hb), done, h⟩
  | true =>
    obtain ⟨i, hi⟩ := programInstr_legal (hlegal.running hb).upc_lt
    have hvi : v.programInstr = some i := (congrArg (·.programInstr) halike.same).symm.trans hi
    have hu := isUop_of_programInstr hi
    have hstep := (step_of_busy_quiet hquiet hslot hb hi).trans (hu.exec_eq t)
    have hvstep := (step_of_busy_quiet hvquiet hvslot (hvbusy.trans hb) hvi).trans (hu.exec_eq v)
    exact ⟨_, _, hstep, hvstep, h.uopFlow hb hi hstep⟩

/-- What holds of two states, and lets a step of each have a next state such that it holds again, holds after any number
of steps. -/
theorem runSteps_of_steps_keep {P : State → State → Prop}
    (hstep : ∀ t v, P t v → ∃ t' v', step t = .next t' ∧ step v = .next v' ∧ P t' v') (n : Nat) {t v : State}
    (h : P t v) : ∃ t' v', runSteps n t = .next t' ∧ runSteps n v = .next v' ∧ P t' v' := by
  induction n generalizing t v with
  | zero => exact ⟨t, v, rfl, rfl, h⟩
  | succ n ih =>
    obtain ⟨t₁, v₁, ht, hv, h₁⟩ := hstep t v h
    obtain ⟨t', v', ht', hv', h'⟩ := ih h₁
    exact ⟨t', v', (runSteps_succ ht n).trans ht', (runSteps_succ hv n).trans hv', h'⟩

/-- Two idle legal cores given the same command accept it alike (R255, R256). -/
theorem State.CommandGiven.steps_next {s u : State} {p : Pins} {o : Op} (hs : s.CommandGiven p o)
    (hu : u.CommandGiven p o) (hreset : s.ansReset = u.ansReset) (hwrite : s.ansWrite = u.ansWrite)
    (hread : s.ansRead = u.ansRead) (hasks : s.asks = u.asks) :
    ∃ t v, step s = .next t ∧ step u = .next v ∧ s.OnSameCommand u o [] t v := by
  have ⟨hinv, _, hpins, _⟩ := hs
  have ⟨_, ⟨htcnt, hbiti, hoe⟩, _⟩ := hinv
  have ⟨⟨_, ⟨hutcnt, hubiti, huoe⟩, _⟩, _, hupins, _⟩ := hu
  have hquiet : s.fetched.pins = [] := by simp [hpins]
  have hsame : (s.fetched.accept o).forget = (u.fetched.accept o).forget := by
    simp [State.forget, State.accept, State.clearFlags, State.fetched, State.dropPins, *]
  have hgrown {α : Type} (a b : List α) : ∃ l, a = a ++ l ∧ b = b ++ l := ⟨[], by simp, by simp⟩
  cases o with
  | read =>
    have hstep := step_of_given_read hs
    exact ⟨_, _, hstep, step_of_given_read hu,
      ⟨hsame, hgrown _ _, hgrown _ _, rfl, by simp, fun _ _ => .inr ⟨List.not_mem_nil, rfl, rfl⟩⟩,
      stepKeepsTheInvariant _ _ hinv hstep, hquiet, by simp, by simp, by simp⟩
  | rewrite =>
    have hstep := step_of_given_rewrite hs
    exact ⟨_, _, hstep, step_of_given_rewrite hu,
      ⟨hsame, hgrown _ _, hgrown _ _, rfl, by simp, fun _ _ => .inr ⟨List.not_mem_nil, rfl, rfl⟩⟩,
      stepKeepsTheInvariant _ _ hinv hstep, hquiet, by simp, by simp, by simp⟩

/-- Settles O47: the two cores accept the command alike and go on alike (`State.OnSameCommand`). -/
theorem commandIgnoresEarlierRegisters : Obligations.CommandIgnoresEarlierRegisters := by
  intro s u p o n hs hu hreset hwrite hread hasks
  obtain ⟨t₁, v₁, hs₁, hu₁, h₁⟩ := hs.steps_next hu hreset hwrite hread hasks
  obtain ⟨t, v, ht, hv, done, halike, -, -, -, hrom, hold⟩ :=
    runSteps_of_steps_keep (P := fun t v => ∃ done, s.OnSameCommand u o done t v)
      (fun _ _ ⟨_, h⟩ => h.step_next) n ⟨[], h₁⟩
  have ⟨hsame, ⟨tr, httr, hvtr⟩, ⟨wr, htwr, hvwr⟩, _, hpat, hfile⟩ := halike
  exact ⟨t, v, (runSteps_succ hs₁ n).trans ht, (runSteps_succ hu₁ n).trans hv, congrArg (·.status) hsame,
    congrArg (·.upc) hsame, fun hvalid => halike.file_eq (d := .romcode) (hrom hvalid),
    fun hvalid => halike.file_eq (d := .oldcode) (hold hvalid), fun k => (hfile .romcode k).imp_right And.right,
    fun k => (hfile .oldcode k).imp_right And.right, hpat.1, hpat.2, tr, wr, httr, hvtr, htwr, hvwr⟩

end Sys2Proof.Machine
end

section
/-! ### Host commands that are dropped or write nothing (R253, R254, R257), and READ (R255) -/

namespace Sys2Proof.Machine

/-- READ on an idle core is its acceptance (R252, R255). -/
theorem exec_read_of_idle {s : State} (hb : s.busy = false) : exec .read s = .next (s.accept .read) := by
  simp [exec, execRead, hb]

/-- A running core drops every host command (R254). -/
theorem exec_host_of_busy {s : State} (hb : s.busy = true) (p : BitVec 64) :
    exec .nop s = .next s ∧ exec .read s = .next s ∧ exec (.rewrite p) s = .next s ∧
      exec .reservedCmd s = .next s :=
  ⟨rfl, by simp [exec, execRead, hb], by simp [exec, execRewrite, hb], rfl⟩

/-- A step of a running core reads nothing of the pins but `rst` (R254). -/
theorem step_of_busy_pins {s : State} {p : Pins} {l : List Pins} (hb : s.busy = true) (hslot : s.slot = none)
    (hrst : p.rst = false) : step { s with pins := p :: l } = step { s with pins := Pins.quiet :: l } := by
  have hnext (q : Pins) : State.nextWord { s with pins := q :: l } = s.programWord.map .uop :=
    nextWord_of_busy hslot hb
  simp only [step, runNext, hnext, pinsNow_cons (s := { s with pins := _ :: l }) rfl, hrst]
  rfl

/-- A tick of a running core reads nothing of the pins but `rst` (R254, R290). -/
theorem tick_of_busy_pins (T : Timing) {s : State} {p : Pins} (inp : Bool) (hb : s.busy = true)
    (hrst : p.rst = false) : tick T ⟨p, inp⟩ s = tickBusy T inp s := by
  simp [tick, hrst, hb]

/-- Settles O8: a step and a tick go as with quiet pins, whatever command the pins give. -/
theorem commandWhileBusyIsDropped : Obligations.CommandWhileBusyIsDropped :=
  ⟨fun _ p hb => exec_host_of_busy hb p,
    fun _ _ _ _ hb hslot hp hq => (step_of_busy_pins hb hslot hp).trans (step_of_busy_pins hb hslot hq).symm,
    fun T _ _ _ inp hb hp hq => (tick_of_busy_pins T inp hb hp).trans (tick_of_busy_pins T inp hb hq).symm⟩

/-- Settles O6: the meaning of NOP is the state it is given. -/
theorem nopWritesNothing : Obligations.NopWritesNothing := fun _ => rfl

/-- Settles O7: the meaning of `cmd = 11` is that of NOP. -/
theorem reservedCommandActsAsNop : Obligations.ReservedCommandActsAsNop := fun s => ⟨rfl, nopWritesNothing s⟩

/-- Settles O9: the writes of `State.accept` are those of R255. -/
theorem readIsAccepted : Obligations.ReadIsAccepted := fun _ => exec_read_of_idle

end Sys2Proof.Machine
end

section
/-! ### The abort (R280) and what is left to run after it (R282) -/

namespace Sys2Proof.Machine

/-- An aborted core without a placed word is idle, so its next word is the command at the pins (R252, R282). -/
theorem nextWord_abort {s : State} (hslot : s.slot = none) (e : ErrCode) :
    (s.abort e).nextWord = some (.host (s.abort e).pinsNow.word) :=
  nextWord_of_idle ((s.abort_slot e).trans hslot) (s.abort_busy e)

/-- Settles O16: the field laws of `State.abort`, and `nextWord_abort` for what runs next. -/
theorem abortRecordsStepAndCause : Obligations.AbortRecordsStepAndCause := by
  intro s e
  refine ⟨?writes, ?keeps, ?histories, fun hslot => ⟨_, nextWord_abort hslot e⟩⟩
  case writes => simp
  case keeps => simp
  case histories => simp

end Sys2Proof.Machine
end

section
/-! ### What `rst` leaves in the registers, in STATUS and at the ports (R310) -/

namespace Sys2Proof.Machine

/-- Every register 0 (R55), and STATUS (R40) and the two ports (R45) as the host then reads them. -/
abbrev State.ReadsAsReset (s : State) : Prop :=
  s.RegistersZero ∧ s.status = 0 ∧ s.romOut = 0 ∧ s.oldOut = 0

theorem reset_readsAsReset : State.reset.ReadsAsReset :=
  have ⟨hregs, _, hstatus⟩ := everyRegisterIsZeroAtReset
  ⟨hregs, hstatus, by decide, by decide⟩

/-- `State.applyReset` differs from the reset state in the model's own fields only, which neither a register nor STATUS
nor a port shows (log 18). -/
theorem applyReset_readsAsReset (s : State) : s.applyReset.ReadsAsReset := reset_readsAsReset

theorem step_of_rst {s : State} (hrst : s.pinsNow.rst = true) : step s = .next s.dropPins.applyReset :=
  if_pos hrst

theorem tick_of_rst (T : Timing) {x : TickIn} (s : State) (hrst : x.pins.rst = true) :
    tick T x s = .next s.applyReset :=
  if_pos hrst

/-- Settles O13: at both levels a `rst` is `State.applyReset`, whatever else the state and the pins hold. -/
theorem rstClearsEveryRegister : Obligations.RstClearsEveryRegister :=
  ⟨fun _ hrst => ⟨_, step_of_rst hrst, applyReset_readsAsReset _⟩,
    fun T _ s hrst => ⟨_, tick_of_rst T s hrst, applyReset_readsAsReset s⟩⟩

end Sys2Proof.Machine
end
